-- ==== Sys2Proof/Word.lean ====
section
/-! DEFINITION. The widths of the hardware (rule R11): nibble, byte and 16-bit word. -/

namespace Sys2Proof

/-- A nibble, the field element of GF(2^4): 4 bits (R11, R18). -/
abbrev Nibble := BitVec 4

/-- A byte of a CBC stream: 8 bits (R11). -/
abbrev Byte := BitVec 8

/-- A 16-bit word: a Block, a Key, a register, a command word or a port transfer (R11, R53, R71). -/
abbrev Word := BitVec 16

end Sys2Proof
end

