-- ==== Sys2Proof/Syntax.lean ====
section
/-! DEFINITION. The commands (R72, R78), one constructor per row of spec/opcode_table.json; the fields of a
command word (R71); the registers of the port by name (R22); and the transactions of a host (R50). -/

namespace Sys2Proof

/-- The 31 commands of R78. A command's operands are never in its word (R71): they are in the registers
DIN, KEY1, KEY2, KEY3, KEYLEN and IV (R75). So no constructor has an argument. The three KEYEXP words are
three rows of the opcode table. -/
inductive Instr where
  /-- NOP (R111) -/
  | nop
  /-- GFMUL (R112) -/
  | gfmul
  /-- SUBNIB (R113) -/
  | subnib
  /-- SUBNIB.I (R114) -/
  | subnibI
  /-- SUBBYTE (R115) -/
  | subbyte
  /-- SUBBYTE.I (R116) -/
  | subbyteI
  /-- ROTNIB (R117) -/
  | rotnib
  /-- SUBNIBS (R118) -/
  | subnibs
  /-- SUBNIBS.I (R119) -/
  | subnibsI
  /-- SHIFTROWS (R120) -/
  | shiftrows
  /-- MIXCOL (R121) -/
  | mixcol
  /-- MIXCOL.I (R122) -/
  | mixcolI
  /-- ADDKEY (R155) -/
  | addkey
  /-- KEYEXP 0 (R156) -/
  | keyexp0
  /-- KEYEXP 1 (R156) -/
  | keyexp1
  /-- KEYEXP 2 (R156) -/
  | keyexp2
  /-- ENC (R157) -/
  | enc
  /-- DEC (R158) -/
  | dec
  /-- DENC (R175) -/
  | denc
  /-- DDEC (R176) -/
  | ddec
  /-- EDEENC (R177) -/
  | edeenc
  /-- EDEDEC (R178) -/
  | ededec
  /-- EEEENC (R179) -/
  | eeeenc
  /-- EEEDEC (R180) -/
  | eeedec
  /-- CBCEI (R200) -/
  | cbcei
  /-- CBCEB (R201) -/
  | cbceb
  /-- CBCEK (R202) -/
  | cbcek
  /-- CBCEF (R203) -/
  | cbcef
  /-- CBCDI (R209) -/
  | cbcdi
  /-- CBCDB (R210) -/
  | cbcdb
  /-- CBCDL (R211) -/
  | cbcdl
deriving DecidableEq, Repr

/-- The one command format, CMD16 (R71). -/
structure Cmd16 where
  /-- [15:8], must be 0x00 -/
  rsv : BitVec 8
  /-- [7:6], the round-key index of KEYEXP -/
  idx : BitVec 2
  /-- [5], 1 selects the inverse table or matrix -/
  inv : BitVec 1
  /-- [4:0], the operation -/
  op  : BitVec 5
deriving DecidableEq, Repr

/-- Why a word is no command: the five bullets of R76. The core reports every one of them as ILLEGAL_CMD
(R231); the names exist in the decoder alone (log entry 11). -/
inductive IllegalCmd where
  /-- RSV is not 0x00. -/
  | reservedBits
  /-- OP is 0x0C to 0x0F, 0x16, 0x17 or 0x1F. -/
  | reservedOp
  /-- INV = 1 with an OP that takes no direction. -/
  | inverseNotTaken
  /-- IDX is not 0 with an OP other than KEYEXP. -/
  | indexNotTaken
  /-- KEYEXP with IDX = 3. -/
  | indexOutOfRange
deriving DecidableEq, Repr

/-- The registers of the port by name (R22). The reserved indices 11 to 15 hold no state (R41);
`reserved j` is index 11 + j. -/
inductive PortReg where
  | cmd | status | din | dout | key1 | key2 | key3 | keylen | iv | chain | pbuf
  | reserved (j : Fin 5)
deriving DecidableEq, Repr

/-- What the outside can do to the core: the two transactions of the register port (R50) and the
platform's reset input (R262; 93_implementation_defined.md U6: one `reset` action). -/
inductive HostEvent where
  /-- `BusRead(a)` of the 4-bit word index a. -/
  | busRead (a : BitVec 4)
  /-- `BusWrite(a, v)` of the 16-bit value v. -/
  | busWrite (a : BitVec 4) (v : Word)
  /-- The platform resets the core. -/
  | reset
deriving DecidableEq, Repr

end Sys2Proof
end

