-- ==== Sys2Proof/WellFormed.lean ====
section
/-! DEFINITION. Which command words are well formed: the five conditions of R76, one check each, over the
fields of a CMD16 word (R71). An `Instr` has no operand (R71), so every `Instr` is well formed; what can be
ill formed is a word. -/

namespace Sys2Proof

/-- RSV must be 0x00 (R71, R76). -/
def Cmd16.rsvOk (c : Cmd16) : Bool := c.rsv == 0x00#8

/-- OP is none of 0x0C, 0x0D, 0x0E, 0x0F, 0x16, 0x17, 0x1F (R72, R76). -/
def Cmd16.opOk (c : Cmd16) : Bool :=
  !([0x0C#5, 0x0D#5, 0x0E#5, 0x0F#5, 0x16#5, 0x17#5, 0x1F#5].contains c.op)

/-- INV may be 1 only with OP 0x02, 0x03, 0x05 or 0x07 (R73, R76). -/
def Cmd16.invOk (c : Cmd16) : Bool :=
  c.inv == 0#1 || [0x02#5, 0x03#5, 0x05#5, 0x07#5].contains c.op

/-- IDX may be other than 0 only with OP 0x09 (R74, R76). -/
def Cmd16.idxOk (c : Cmd16) : Bool := c.idx == 0#2 || c.op == 0x09#5

/-- IDX = 3 is illegal with OP 0x09, because the schedule has exactly 3 Blocks (R74, R76). -/
def Cmd16.idxInRange (c : Cmd16) : Bool := !(c.op == 0x09#5 && c.idx == 3#2)

/-- A legal word: none of the five conditions of R76 holds. -/
def Cmd16.wellFormed (c : Cmd16) : Bool :=
  c.rsvOk && c.opOk && c.invOk && c.idxOk && c.idxInRange

end Sys2Proof
end

