-- ==== Sys2Proof/Decode.lean ====
section
/-! DEFINITION. The decoder, written from the fields and operation table of R70 to R74 and R76, total on
any word and rejecting by name; and the encoder, written from the words of the table of R78. -/

namespace Sys2Proof

/-- The fields of a command word (R71). -/
def splitCmd (v : Word) : Cmd16 where
  rsv := v.extractLsb' 8 8
  idx := v.extractLsb' 6 2
  inv := v.extractLsb' 5 1
  op  := v.extractLsb' 0 5

/-- A command that takes neither a direction nor an index: INV and IDX must be 0 (R73, R74). -/
def decodePlain (i : Instr) (inv : BitVec 1) (idx : BitVec 2) : Except IllegalCmd Instr :=
  if inv ≠ 0#1 then .error .inverseNotTaken
  else if idx ≠ 0#2 then .error .indexNotTaken
  else .ok i

/-- A command with a direction: INV = 1 selects the inverse form; IDX must be 0 (R73, R74). -/
def decodeDirected (fwd bwd : Instr) (inv : BitVec 1) (idx : BitVec 2) : Except IllegalCmd Instr :=
  if idx ≠ 0#2 then .error .indexNotTaken
  else .ok (if inv = 1#1 then bwd else fwd)

/-- KEYEXP: IDX selects round key 0, 1 or 2 and INV must be 0 (R73, R74). -/
def decodeKeyexp (inv : BitVec 1) (idx : BitVec 2) : Except IllegalCmd Instr :=
  if inv ≠ 0#1 then .error .inverseNotTaken
  else match idx.toNat with
    | 0 => .ok .keyexp0
    | 1 => .ok .keyexp1
    | 2 => .ok .keyexp2
    | _ => .error .indexOutOfRange

/-- The operation table of R72. -/
def decodeOp (op : BitVec 5) (inv : BitVec 1) (idx : BitVec 2) : Except IllegalCmd Instr :=
  match op.toNat with
  | 0x00 => decodePlain .nop inv idx
  | 0x01 => decodePlain .gfmul inv idx
  | 0x02 => decodeDirected .subnib .subnibI inv idx
  | 0x03 => decodeDirected .subbyte .subbyteI inv idx
  | 0x04 => decodePlain .rotnib inv idx
  | 0x05 => decodeDirected .subnibs .subnibsI inv idx
  | 0x06 => decodePlain .shiftrows inv idx
  | 0x07 => decodeDirected .mixcol .mixcolI inv idx
  | 0x08 => decodePlain .addkey inv idx
  | 0x09 => decodeKeyexp inv idx
  | 0x0A => decodePlain .enc inv idx
  | 0x0B => decodePlain .dec inv idx
  | 0x10 => decodePlain .denc inv idx
  | 0x11 => decodePlain .ddec inv idx
  | 0x12 => decodePlain .edeenc inv idx
  | 0x13 => decodePlain .ededec inv idx
  | 0x14 => decodePlain .eeeenc inv idx
  | 0x15 => decodePlain .eeedec inv idx
  | 0x18 => decodePlain .cbcei inv idx
  | 0x19 => decodePlain .cbceb inv idx
  | 0x1A => decodePlain .cbcek inv idx
  | 0x1B => decodePlain .cbcef inv idx
  | 0x1C => decodePlain .cbcdi inv idx
  | 0x1D => decodePlain .cbcdb inv idx
  | 0x1E => decodePlain .cbcdl inv idx
  | _ => .error .reservedOp

/-- Decoding a command word (R70): the command, or why the word is none (R76). It reads only the word. -/
def decode (v : Word) : Except IllegalCmd Instr :=
  let c := splitCmd v
  if c.rsv ≠ 0x00#8 then .error .reservedBits else decodeOp c.op c.inv c.idx

/-- The word of each command, as the table of R78 lists it. -/
def encode : Instr → Word
  | .nop => 0x0000
  | .gfmul => 0x0001
  | .subnib => 0x0002
  | .subnibI => 0x0022
  | .subbyte => 0x0003
  | .subbyteI => 0x0023
  | .rotnib => 0x0004
  | .subnibs => 0x0005
  | .subnibsI => 0x0025
  | .shiftrows => 0x0006
  | .mixcol => 0x0007
  | .mixcolI => 0x0027
  | .addkey => 0x0008
  | .keyexp0 => 0x0009
  | .keyexp1 => 0x0049
  | .keyexp2 => 0x0089
  | .enc => 0x000A
  | .dec => 0x000B
  | .denc => 0x0010
  | .ddec => 0x0011
  | .edeenc => 0x0012
  | .ededec => 0x0013
  | .eeeenc => 0x0014
  | .eeedec => 0x0015
  | .cbcei => 0x0018
  | .cbceb => 0x0019
  | .cbcek => 0x001A
  | .cbcef => 0x001B
  | .cbcdi => 0x001C
  | .cbcdb => 0x001D
  | .cbcdl => 0x001E

/-- A command word given as a number whose low `nbits` bits are the instruction's, the bits above them 0.
The port moves whole 16-bit words (R53), so there is no byte order to lay out (log entry 16). -/
def commandWord (nbits w : Nat) : Word := BitVec.ofNat 16 (w % 2 ^ nbits)

/-- What the decoder reads from the command word w, or none where it refuses. -/
def decodeTableWord (nbits w : Nat) : Option Instr :=
  match decode (commandWord nbits w) with
  | .ok i => some i
  | .error _ => none

end Sys2Proof
end

