-- ==== Sys2Proof/Config.lean ====
section
/-! DEFINITION. The parameters of R12, which an instance of the core fixes for its life (R44): `LAYOUT`,
`SBOX` and `PORT_BASE`. The spec's defaults of the first two stand in Machine/Params.lean. -/

namespace Sys2Proof

/-- Where the cells s01 and s10 of a Block sit (R21). -/
inductive Layout where
  /-- s01 = b[11:8], s10 = b[7:4]: the default (R12, D8). -/
  | rowMajor
  /-- s01 = b[7:4], s10 = b[11:8]: the layout of the published cipher (R21). -/
  | columnMajor
deriving DecidableEq, Repr

/-- A value of the parameter `SBOX`: a table of 16 nibbles, entry `4·row + column` for row n[3:2] and
column n[1:0] (R101), that is a bijection on 0..15 (R102; 93_implementation_defined.md U1: a
non-bijective table is not allowed). Sixteen nibbles without a repeat are such a bijection. -/
structure SBox where
  table : Vector Nibble 16
  nodup : table.toList.Nodup
deriving DecidableEq, Repr

/-- The parameters that the meaning of a command depends on (R12, R44). -/
structure Config where
  layout : Layout
  sbox   : SBox
deriving DecidableEq, Repr

/-- `PORT_BASE` (R12, R52): the base address of the register port in the host's own address map. The spec
leaves it open, with no default, and no rule of the core depends on it: nothing in the model reads it
(log entry 8). -/
opaque Config.portBase : Nat

end Sys2Proof
end

