-- ==== Sys2Proof/Machine/Bits.lean ====
section
/-! DEFINITION. Bit fields and byte order inside a 16-bit Block or Key: most significant first (R13, R14, R54). -/

namespace Sys2Proof.Machine

/-- Nibble 0 of a Block, b[15:12] (R13). -/
def nib0 (b : Word) : Nibble := b.extractLsb' 12 4

/-- Nibble 1 of a Block, b[11:8] (R13). -/
def nib1 (b : Word) : Nibble := b.extractLsb' 8 4

/-- Nibble 2 of a Block, b[7:4] (R13). -/
def nib2 (b : Word) : Nibble := b.extractLsb' 4 4

/-- Nibble 3 of a Block, b[3:0] (R13). -/
def nib3 (b : Word) : Nibble := b.extractLsb' 0 4

/-- `zext_16` of a nibble (R14). -/
def zextNibble (n : Nibble) : Word := n.setWidth 16

/-- `zext_16` of a byte (R14). -/
def zextByte (b : Byte) : Word := b.setWidth 16

/-- The Block of four nibbles, n0 the most significant (R14). -/
def nib4 (n0 n1 n2 n3 : Nibble) : Word :=
  (zextNibble n0 <<< 12) ||| (zextNibble n1 <<< 8) ||| (zextNibble n2 <<< 4) ||| zextNibble n3

/-- The high byte b[15:8] (R54). -/
def hiByte (b : Word) : Byte := b.extractLsb' 8 8

/-- The low byte b[7:0] (R54). -/
def loByte (b : Word) : Byte := b.extractLsb' 0 8

/-- `(hi << 8) | lo`: two bytes joined into a Block, the first byte high (R14, R56). -/
def joinBytes (hi lo : Byte) : Word := (zextByte hi <<< 8) ||| zextByte lo

/-- The high nibble of a byte, b[7:4] (R105). -/
def hiNibble (b : Byte) : Nibble := b.extractLsb' 4 4

/-- The low nibble of a byte, b[3:0] (R105). -/
def loNibble (b : Byte) : Nibble := b.extractLsb' 0 4

/-- `(hi << 4) | lo`: two nibbles joined into a byte (R105, R106). -/
def joinNibbles (hi lo : Nibble) : Byte := (hi.setWidth 8 <<< 4) ||| lo.setWidth 8

end Sys2Proof.Machine
end

