-- ==== Sys2Proof/Machine/Gf16.lean ====
section
/-! DEFINITION. The GF(2^4) engine and the S-box tables (R100 to R107): pure functions. -/

namespace Sys2Proof.Machine

/-- The field polynomial x^4 + x + 1, `0b10011` (R12, R100). -/
def fieldPoly : BitVec 5 := 0b10011

/-- The "current a" of R100 after one step: shifted left, and reduced when bit 4 becomes set. -/
def timesX (aa : BitVec 5) : BitVec 5 :=
  let sh := aa <<< 1
  if sh.getLsbD 4 then sh ^^^ fieldPoly else sh

/-- One round of the loop of R100, for bit i of b: the accumulator p and the current a. -/
def multiplyStep (b : Nibble) (acc : Nibble × BitVec 5) (i : Nat) : Nibble × BitVec 5 :=
  (if b.getLsbD i then acc.1 ^^^ acc.2.setWidth 4 else acc.1, timesX acc.2)

/-- `multiply(a, b)` (R100): shift and reduce, b[0] first. -/
def multiply (a b : Nibble) : Nibble :=
  ([0, 1, 2, 3].foldl (multiplyStep b) (0, a.setWidth 5)).1

/-- `SBOX[n]` (R101). -/
def sboxAt (t : SBox) (n : Nibble) : Nibble := t.table[n.toNat]'n.isLt

/-- The sixteen nibbles. -/
def allNibbles : List Nibble := [0, 1, 2, 3, 4, 5, 6, 7, 8, 9, 10, 11, 12, 13, 14, 15]

/-- `SBOX_INV[m]`, derived from SBOX by inversion (R103): the n with `SBOX[n] = m`. There is exactly one, because
an `SBox` is a bijection, so the default of `getD` is never taken (log entry 15). -/
def sboxInvAt (t : SBox) (m : Nibble) : Nibble :=
  (allNibbles.find? fun n => sboxAt t n == m).getD 0

/-- `substituteNibble(n, inverse)` (R104). -/
def substituteNibble (t : SBox) (n : Nibble) (inverse : Bool) : Nibble :=
  if inverse then sboxInvAt t n else sboxAt t n

/-- `substituteByte(byte, inverse)` (R105). -/
def substituteByte (t : SBox) (b : Byte) (inverse : Bool) : Byte :=
  joinNibbles (substituteNibble t (hiNibble b) inverse) (substituteNibble t (loNibble b) inverse)

/-- `rotateNibbles(byte)` (R106). -/
def rotateNibbles (b : Byte) : Byte := joinNibbles (loNibble b) (hiNibble b)

/-- `substituteNibbles(block, inverse)` (R107). It does not depend on LAYOUT. -/
def substituteNibbles (t : SBox) (b : Word) (inverse : Bool) : Word :=
  nib4 (substituteNibble t (nib0 b) inverse) (substituteNibble t (nib1 b) inverse)
    (substituteNibble t (nib2 b) inverse) (substituteNibble t (nib3 b) inverse)

end Sys2Proof.Machine
end

