-- ==== Sys2Proof/Machine/StateOps.lean ====
section
/-! DEFINITION. A Block as a 2×2 matrix of nibbles under LAYOUT (R21), shiftRows and mixColumns (R108, R109). -/

namespace Sys2Proof.Machine

/-- Cell (0, 0) of a Block: b[15:12] under both layouts (R21). -/
def s00 (_ : Layout) (b : Word) : Nibble := nib0 b

/-- Cell (0, 1) of a Block (R21). -/
def s01 : Layout → Word → Nibble
  | .rowMajor, b => nib1 b
  | .columnMajor, b => nib2 b

/-- Cell (1, 0) of a Block (R21). -/
def s10 : Layout → Word → Nibble
  | .rowMajor, b => nib2 b
  | .columnMajor, b => nib1 b

/-- Cell (1, 1) of a Block: b[3:0] under both layouts (R21). -/
def s11 (_ : Layout) (b : Word) : Nibble := nib3 b

/-- `pack(s00, s01, s10, s11)`: the Block whose cells are these under LAYOUT (R21). -/
def pack (l : Layout) (c00 c01 c10 c11 : Nibble) : Word :=
  match l with
  | .rowMajor => nib4 c00 c01 c10 c11
  | .columnMajor => nib4 c00 c10 c01 c11

/-- `shiftRows(block)`: the two cells of the second row exchange positions (R108). -/
def shiftRows (l : Layout) (b : Word) : Word :=
  pack l (s00 l b) (s01 l b) (s11 l b) (s10 l b)

/-- m0, the diagonal entry of the mix matrix `[[m0, m1], [m1, m0]]` (R109). -/
def mixDiagonal (inverse : Bool) : Nibble := if inverse then 0x9 else 0x1

/-- m1, the other entry of the mix matrix (R109). -/
def mixOffDiagonal (inverse : Bool) : Nibble := if inverse then 0x2 else 0x4

/-- Row 0 of the matrix applied to the column (x, y) (R109). -/
def mixTop (inverse : Bool) (x y : Nibble) : Nibble :=
  multiply (mixDiagonal inverse) x ^^^ multiply (mixOffDiagonal inverse) y

/-- Row 1 of the matrix applied to the column (x, y) (R109). -/
def mixBottom (inverse : Bool) (x y : Nibble) : Nibble :=
  multiply (mixOffDiagonal inverse) x ^^^ multiply (mixDiagonal inverse) y

/-- `mixColumns(block, inverse)`: the matrix applied to the columns (s00, s10) and (s01, s11) (R109). -/
def mixColumns (l : Layout) (b : Word) (inverse : Bool) : Word :=
  pack l (mixTop inverse (s00 l b) (s10 l b)) (mixTop inverse (s01 l b) (s11 l b))
    (mixBottom inverse (s00 l b) (s10 l b)) (mixBottom inverse (s01 l b) (s11 l b))

end Sys2Proof.Machine
end

