-- ==== Sys2Proof/Machine/Cipher.lean ====
section
/-! DEFINITION. The key schedule (R150, R151), the 2-round cipher (R152, R153) and the three
multi-encryption constructions (R170 to R172): pure functions. -/

namespace Sys2Proof.Machine

/-- `RCON1` (R151). -/
def rcon1 : Byte := 0x80

/-- `RCON2` (R151). -/
def rcon2 : Byte := 0x30

/-- The RoundKeySchedule: exactly three Blocks (R11). It is never stored (R40). -/
structure RoundKeys where
  rk0 : Word
  rk1 : Word
  rk2 : Word
deriving DecidableEq, Repr

/-- `substituteByte(rotateNibbles(w), false)`, the temp of R150. -/
def scheduleTemp (t : SBox) (w : Byte) : Byte := substituteByte t (rotateNibbles w) false

/-- `expand(key)` (R150). -/
def expand (t : SBox) (key : Word) : RoundKeys :=
  let w0 := hiByte key
  let w1 := loByte key
  let w2 := w0 ^^^ rcon1 ^^^ scheduleTemp t w1
  let w3 := w2 ^^^ w1
  let w4 := w2 ^^^ rcon2 ^^^ scheduleTemp t w3
  let w5 := w4 ^^^ w3
  { rk0 := key, rk1 := joinBytes w2 w3, rk2 := joinBytes w4 w5 }

/-- Round 1 of `encrypt` before its key addition: substituteNibbles, shiftRows, mixColumns (R152). -/
def round1 (c : Config) (x : Word) : Word :=
  mixColumns c.layout (shiftRows c.layout (substituteNibbles c.sbox x false)) false

/-- Round 2 of `encrypt` before its key addition, "final, no mix" (R152). -/
def round2 (c : Config) (x : Word) : Word :=
  shiftRows c.layout (substituteNibbles c.sbox x false)

/-- Round 2 undone after its key addition: shiftRows, then inverse substitution (R153). -/
def unround2 (c : Config) (x : Word) : Word :=
  substituteNibbles c.sbox (shiftRows c.layout x) true

/-- Round 1 undone after its key addition: inverse mixColumns, shiftRows, inverse substitution (R153). -/
def unround1 (c : Config) (x : Word) : Word :=
  substituteNibbles c.sbox (shiftRows c.layout (mixColumns c.layout x true)) true

/-- `encrypt(plaintext, key)`, also written E_k(P) (R152). -/
def encrypt (c : Config) (plaintext key : Word) : Word :=
  let rk := expand c.sbox key
  round2 c (round1 c (plaintext ^^^ rk.rk0) ^^^ rk.rk1) ^^^ rk.rk2

/-- `decrypt(ciphertext, key)`, also written D_k(C) (R153). -/
def decrypt (c : Config) (ciphertext key : Word) : Word :=
  let rk := expand c.sbox key
  unround1 c (unround2 c (ciphertext ^^^ rk.rk2) ^^^ rk.rk1) ^^^ rk.rk0

/-- `doubleEncrypt` (R170). -/
def doubleEncrypt (c : Config) (p k1 k2 : Word) : Word := encrypt c (encrypt c p k1) k2

/-- `doubleDecrypt` (R170). -/
def doubleDecrypt (c : Config) (x k1 k2 : Word) : Word := decrypt c (decrypt c x k2) k1

/-- `edeEncrypt` (R171). -/
def edeEncrypt (c : Config) (p k1 k2 : Word) : Word :=
  encrypt c (decrypt c (encrypt c p k1) k2) k1

/-- `edeDecrypt` (R171). -/
def edeDecrypt (c : Config) (x k1 k2 : Word) : Word :=
  decrypt c (encrypt c (decrypt c x k1) k2) k1

/-- `eeeEncrypt` (R172). -/
def eeeEncrypt (c : Config) (p k1 k2 k3 : Word) : Word :=
  encrypt c (encrypt c (encrypt c p k1) k2) k3

/-- `eeeDecrypt` (R172). -/
def eeeDecrypt (c : Config) (x k1 k2 k3 : Word) : Word :=
  decrypt c (decrypt c (decrypt c x k3) k2) k1

end Sys2Proof.Machine
end

