-- ==== Sys2Proof/Machine/Params.lean ====
section
/-! DEFINITION. The spec's default values of the parameters (R12, R102; 92_eei_decisions.md D8, D9). -/

namespace Sys2Proof.Machine

/-- The default `LAYOUT`: the literal reading of the packing, row by row (R21, 90_conflicts.md C1). -/
def defaultLayout : Layout := .rowMajor

/-- The default `SBOX` (R102): the table of the published S-AES cipher, which the spec itself marks as
general knowledge (93_implementation_defined.md G1). -/
def defaultSBox : SBox where
  table := #v[0x9, 0x4, 0xA, 0xB,
              0xD, 0x1, 0x8, 0x5,
              0x6, 0x2, 0x0, 0x3,
              0xC, 0xE, 0xF, 0x7]
  nodup := by decide

/-- The default parameters (R12). -/
def defaultConfig : Config := ⟨defaultLayout, defaultSBox⟩

end Sys2Proof.Machine
end

