-- ==== Sys2Proof/Machine/State.lean ====
section
/-! DEFINITION. The state of the core (R22, R36, R43), the parameters of its instance (R44), the model's two
fields for the host side (log entry 4), the reasons a step could stop, and the state after reset (R260). -/

namespace Sys2Proof.Machine

/-- The outcomes that STATUS.ERR records (R230). Their codes are in Machine/Flags.lean. -/
inductive ErrCode where
  /-- The command completed. -/
  | ok
  /-- KEYLEN is not the number of 16-bit keys the command needs (R232). -/
  | keyLength
  /-- The decrypted last Block is not a valid padded Block (R234). -/
  | padding
  /-- A CBC command in the wrong MODE, or CBCEK with a half block held (R233). -/
  | sequence
  /-- The word written to CMD decodes to no command (R231). -/
  | illegalCmd
deriving DecidableEq, Repr

/-- The whole state. The first fifteen fields are exactly the state of R43, with its widths; the last three
are the model's own. -/
structure State where
  /-- CMD, index 0 (R28): the last command word written. -/
  cmd : Word
  /-- DIN, index 2 (R23): the data operand. -/
  din : Word
  /-- DOUT, index 3 (R24): the result. -/
  dout : Word
  /-- KEY1, index 4 (R25). -/
  key1 : Word
  /-- KEY2, index 5 (R25). -/
  key2 : Word
  /-- KEY3, index 6 (R25). -/
  key3 : Word
  /-- KEYLEN[2:0], index 7 (R26): the composite-key length in 16-bit words. -/
  keylen : BitVec 3
  /-- IV, index 8 (R27): the CBC initialization vector. -/
  iv : Word
  /-- CHAIN, index 9 (R34): the CBC chain value. -/
  chain : Word
  /-- PBUF, index 10 (R35): the held first byte of a plaintext block. -/
  pbuf : Byte
  /-- CBCKEY, hidden (R36): the key of the CBC stream. -/
  cbckey : Word
  /-- ERR, STATUS[2:0] (R30). -/
  err : BitVec 3
  /-- OUTN, STATUS[4:3] (R31): the number of valid output bytes in DOUT. -/
  outn : BitVec 2
  /-- MODE, STATUS[6:5] (R32): the state of the CBC sequencer. -/
  mode : BitVec 2
  /-- PBV, STATUS[7] (R33): the byte buffer is full. -/
  pbv : BitVec 1
  /-- The parameters of this instance (R12, R44). No step writes them; they travel with the state so that
  the model takes them as arguments (log entry 3). -/
  cfg : Config
  /-- The model's own: the host events still to come, in the one total order of R59, the next one first.
  With several hosts it is any interleaving of theirs (R60, log entry 9). -/
  pending : List HostEvent
  /-- The model's own: the values the port has returned to `BusRead`s, the first one first. -/
  replies : List Word
deriving DecidableEq, Repr

/-- The reasons the machine stops with a fault: there are none. Every port index is decoded, so no port
access faults (R51); nothing traps (R237); an error is a value of STATUS.ERR in a next state (R236). Safe
(log entry 18). -/
inductive Fault
deriving DecidableEq, Repr

/-- The reasons a step has no meaning. -/
inductive Refusal where
  /-- Raised by an arm of `exec` for a command without a meaning: no arm raises it. Safe: it stops. -/
  | notModelled (mnemonic : String)
deriving DecidableEq, Repr

/-- The core right after reset: every stored bit is 0 (R260). The parameters have the spec's defaults (R12),
no host event is pending and none has been answered (the model's own, log entry 4). -/
def State.reset : State where
  cmd := 0
  din := 0
  dout := 0
  key1 := 0
  key2 := 0
  key3 := 0
  keylen := 0
  iv := 0
  chain := 0
  pbuf := 0
  cbckey := 0
  err := 0
  outn := 0
  mode := 0
  pbv := 0
  cfg := defaultConfig
  pending := []
  replies := []

end Sys2Proof.Machine
end

