-- ==== Sys2Proof/Machine/Flags.lean ====
section
/-! DEFINITION. The STATUS word and the values of its fields (R29 to R33, R230). -/

namespace Sys2Proof.Machine

/-- The codes of R230. -/
def errBits : ErrCode → BitVec 3
  | .ok => 0
  | .keyLength => 1
  | .padding => 2
  | .sequence => 3
  | .illegalCmd => 4

/-- MODE 0: no stream (R32). -/
def modeIdle : BitVec 2 := 0

/-- MODE 1: a CBC encryption stream is open (R32). -/
def modeEnc : BitVec 2 := 1

/-- MODE 2: a CBC decryption stream is open (R32). -/
def modeDec : BitVec 2 := 2

/-- What STATUS reads as: `(PBV << 7) | (MODE << 5) | (OUTN << 3) | ERR` (R29). -/
def statusWord (s : State) : Word :=
  (s.pbv.setWidth 16 <<< 7) ||| (s.mode.setWidth 16 <<< 5) ||| (s.outn.setWidth 16 <<< 3)
    ||| s.err.setWidth 16

/-- ERR of a STATUS word a host has read, [2:0] (R29). -/
def statusErr (w : Word) : BitVec 3 := w.extractLsb' 0 3

/-- OUTN of a STATUS word a host has read, [4:3] (R29). -/
def statusOutn (w : Word) : BitVec 2 := w.extractLsb' 3 2

/-- MODE of a STATUS word a host has read, [6:5] (R29). -/
def statusMode (w : Word) : BitVec 2 := w.extractLsb' 5 2

/-- PBV of a STATUS word a host has read, [7] (R29). -/
def statusPbv (w : Word) : BitVec 1 := w.extractLsb' 7 1

end Sys2Proof.Machine
end

