-- ==== Sys2Proof/Machine/Operands.lean ====
section
/-! DEFINITION. The operand forms of R75: which bits of DIN a command reads. Bits of DIN not listed are
ignored. -/

namespace Sys2Proof.Machine

/-- GFMUL's a = DIN[7:4] (R112). -/
def dinFactorA (s : State) : Nibble := s.din.extractLsb' 4 4

/-- GFMUL's b = DIN[3:0] (R112). -/
def dinFactorB (s : State) : Nibble := s.din.extractLsb' 0 4

/-- A nibble operand, n = DIN[3:0] (R113, R114). -/
def dinNibble (s : State) : Nibble := s.din.extractLsb' 0 4

/-- A byte operand, DIN[7:0] (R115 to R117, R201). -/
def dinByte (s : State) : Byte := s.din.extractLsb' 0 8

end Sys2Proof.Machine
end

