-- ==== Sys2Proof/Machine/Ops.lean ====
section
/-! DEFINITION. The named operations over the registers: how a command completes or raises an error
(R16, R236), the key-length and sequence checks (R232, R233), the writes of the CBC sequencer (R200 to R211),
the registers as the port reads and writes them (R22), and reset (R260). -/

namespace Sys2Proof.Machine

/-- `raise E()` (R16): the command ends, ERR is the code of E and OUTN is 0. It is the only exception entry the
hardware has: nothing traps, no state is saved and no control moves (R237), so there is no return from it either. -/
def raise (e : ErrCode) (s : State) : State := { s with err := errBits e, outn := 0 }

/-- A command that ends without `raise` writes ERR = OK (R16). -/
def complete (s : State) : State := { s with err := errBits .ok }

/-- A successful data command: DOUT holds the whole result, OUTN = 2, ERR = OK (R24, R31). -/
def writeResult (v : Word) (s : State) : State := { s with dout := v, outn := 2, err := errBits .ok }

/-- The key-length check (R232): a command that needs n keys compares KEYLEN with n before anything else. -/
def withKeys (n : BitVec 3) (body : State → State) (s : State) : State :=
  if s.keylen = n then body s else raise .keyLength s

/-- The sequence check (R196, R233): a stream command runs in its own MODE alone. -/
def inMode (m : BitVec 2) (body : State → State) (s : State) : State :=
  if s.mode = m then body s else raise .sequence s

/-- What CBCEI and CBCDI do once KEYLEN = 1: latch KEY1 and IV, empty the byte buffer, enter MODE m
(R200, R209). -/
def openStream (m : BitVec 2) (s : State) : State :=
  { s with
    cbckey := s.key1, chain := s.iv, pbv := 0, pbuf := 0, mode := m, outn := 0, err := errBits .ok }

/-- CBCEB on the first byte of a block: hold it (R201). -/
def holdByte (b : Byte) (s : State) : State :=
  { s with pbuf := b, pbv := 1, outn := 0, err := errBits .ok }

/-- Empty the byte buffer (R33: when PBV = 0, PBUF = 0x00). -/
def dropByte (s : State) : State := { s with pbv := 0, pbuf := 0 }

/-- Emit the ciphertext block c: it is the result and the new chain value (R190, R201 to R203). -/
def emitBlock (c : Word) (s : State) : State :=
  { s with chain := c, dout := c, outn := 2, err := errBits .ok }

/-- Take the ciphertext block in DIN as the new chain value (R190, R210, R211). -/
def takeChain (s : State) : State := { s with chain := s.din }

/-- The stream ends: MODE = IDLE (R203, R211). -/
def closeStream (s : State) : State := { s with mode := modeIdle }

/-- The outcome of CBCDL for the decrypted last Block p (R194, R211 to R213): one byte remains, none remains,
or PADDING with DOUT = 0. -/
def unpadResult (p : Word) (s : State) : State :=
  if loByte p = 0x01#8 then { s with dout := p &&& 0xFF00, outn := 1, err := errBits .ok }
  else if p = 0x0202#16 then { s with dout := 0, outn := 0, err := errBits .ok }
  else raise .padding { s with dout := 0 }

/-- The register at a port index (R22, R51). -/
def portReg (a : BitVec 4) : PortReg :=
  match a.toNat with
  | 0 => .cmd
  | 1 => .status
  | 2 => .din
  | 3 => .dout
  | 4 => .key1
  | 5 => .key2
  | 6 => .key3
  | 7 => .keylen
  | 8 => .iv
  | 9 => .chain
  | 10 => .pbuf
  | 11 => .reserved 0
  | 12 => .reserved 1
  | 13 => .reserved 2
  | 14 => .reserved 3
  | _ => .reserved 4

/-- The port index of a register (R22). -/
def portIndex : PortReg → BitVec 4
  | .cmd => 0
  | .status => 1
  | .din => 2
  | .dout => 3
  | .key1 => 4
  | .key2 => 5
  | .key3 => 6
  | .keylen => 7
  | .iv => 8
  | .chain => 9
  | .pbuf => 10
  | .reserved j => BitVec.ofNat 4 (11 + j.val)

/-- What a read of a register returns (R22 to R29, R34, R35, R41). CBCKEY is no register of the port (R36). -/
def readReg (s : State) : PortReg → Word
  | .cmd => s.cmd
  | .status => statusWord s
  | .din => s.din
  | .dout => s.dout
  | .key1 => s.key1
  | .key2 => s.key2
  | .key3 => s.key3
  | .keylen => s.keylen.setWidth 16
  | .iv => s.iv
  | .chain => s.chain
  | .pbuf => zextByte s.pbuf
  | .reserved _ => 0

/-- What a write of v stores in a register, before any command runs (R22 to R28, R41, R42). KEYLEN stores v[2:0]
(R26). A read-only or reserved register ignores the write. -/
def storeReg (r : PortReg) (v : Word) (s : State) : State :=
  match r with
  | .cmd => { s with cmd := v }
  | .din => { s with din := v }
  | .key1 => { s with key1 := v }
  | .key2 => { s with key2 := v }
  | .key3 => { s with key3 := v }
  | .keylen => { s with keylen := v.extractLsb' 0 3 }
  | .iv => { s with iv := v }
  | .status | .dout | .chain | .pbuf | .reserved _ => s

/-- `BusRead(a)` (R50, R58): the port returns the register's value; nothing of the core changes. -/
def busReadReply (a : BitVec 4) (s : State) : State :=
  { s with replies := s.replies ++ [readReg s (portReg a)] }

/-- Reset (R260): every stored bit of the core is 0. The parameters of the instance stay (R44), and so does what
belongs to the host side: its events still to come and the replies it already has. -/
def coreReset (s : State) : State :=
  { State.reset with cfg := s.cfg, pending := s.pending, replies := s.replies }

end Sys2Proof.Machine
end

