-- ==== Sys2Proof/Machine/Cbc.lean ====
section
/-! DEFINITION. The meanings of the commands of 44_cbc.md: the CBC sequencer (R195 to R203, R209 to R213). -/

namespace Sys2Proof.Machine

/-- The ciphertext of the plaintext Block blk in the open stream: `encrypt(blk ^ CHAIN, CBCKEY)`
(R190, R197). -/
def chainEncrypt (blk : Word) (s : State) : Word := encrypt s.cfg (blk ^^^ s.chain) s.cbckey

/-- The plaintext of the ciphertext Block in DIN in the open stream: `decrypt(DIN, CBCKEY) ^ CHAIN`
(R190, R197). -/
def chainDecrypt (s : State) : Word := decrypt s.cfg s.din s.cbckey ^^^ s.chain

/-- The last Block of the padded message: the held byte and 0x01, or 0x0202 (R193, R203). -/
def lastBlock (s : State) : Word := if s.pbv = 1 then joinBytes s.pbuf 0x01 else 0x0202

/-- CBCEI (R200). -/
def execCbcei (s : State) : Host.Outcome State Fault Refusal :=
  .next (withKeys 1 (openStream modeEnc) s)

/-- What CBCEB does in an encryption stream (R201). -/
def takeByte (s : State) : State :=
  if s.pbv = 0 then holdByte (dinByte s) s
  else dropByte (emitBlock (chainEncrypt (joinBytes s.pbuf (dinByte s)) s) s)

/-- CBCEB (R201). -/
def execCbceb (s : State) : Host.Outcome State Fault Refusal :=
  .next (inMode modeEnc takeByte s)

/-- What CBCEK does in an encryption stream: a held half block is a sequence error (R196, R202). -/
def takeBlock (s : State) : State :=
  if s.pbv = 1 then raise .sequence s else emitBlock (chainEncrypt s.din s) s

/-- CBCEK (R202). -/
def execCbcek (s : State) : Host.Outcome State Fault Refusal :=
  .next (inMode modeEnc takeBlock s)

/-- CBCEF (R203). -/
def execCbcef (s : State) : Host.Outcome State Fault Refusal :=
  .next (inMode modeEnc
    (fun s => closeStream (dropByte (emitBlock (chainEncrypt (lastBlock s) s) s))) s)

/-- CBCDI (R209). -/
def execCbcdi (s : State) : Host.Outcome State Fault Refusal :=
  .next (withKeys 1 (openStream modeDec) s)

/-- CBCDB (R210). -/
def execCbcdb (s : State) : Host.Outcome State Fault Refusal :=
  .next (inMode modeDec (fun s => writeResult (chainDecrypt s) (takeChain s)) s)

/-- CBCDL (R211, R212, R213). -/
def execCbcdl (s : State) : Host.Outcome State Fault Refusal :=
  .next (inMode modeDec
    (fun s => unpadResult (chainDecrypt s) (closeStream (takeChain s))) s)

end Sys2Proof.Machine
end

