-- ==== Sys2Proof/Machine/MultiKey.lean ====
section
/-! DEFINITION. The meanings of the commands of 43_multi_encryption.md (R174 to R180, R182): two keys and
KEYLEN = 2, or three and KEYLEN = 3. -/

namespace Sys2Proof.Machine

/-- DENC (R175). -/
def execDenc (s : State) : Host.Outcome State Fault Refusal :=
  .next (withKeys 2 (fun s => writeResult (doubleEncrypt s.cfg s.din s.key1 s.key2) s) s)

/-- DDEC (R176). -/
def execDdec (s : State) : Host.Outcome State Fault Refusal :=
  .next (withKeys 2 (fun s => writeResult (doubleDecrypt s.cfg s.din s.key1 s.key2) s) s)

/-- EDEENC (R177). -/
def execEdeenc (s : State) : Host.Outcome State Fault Refusal :=
  .next (withKeys 2 (fun s => writeResult (edeEncrypt s.cfg s.din s.key1 s.key2) s) s)

/-- EDEDEC (R178). -/
def execEdedec (s : State) : Host.Outcome State Fault Refusal :=
  .next (withKeys 2 (fun s => writeResult (edeDecrypt s.cfg s.din s.key1 s.key2) s) s)

/-- EEEENC (R179). -/
def execEeeenc (s : State) : Host.Outcome State Fault Refusal :=
  .next (withKeys 3 (fun s => writeResult (eeeEncrypt s.cfg s.din s.key1 s.key2 s.key3) s) s)

/-- EEEDEC (R180). -/
def execEeedec (s : State) : Host.Outcome State Fault Refusal :=
  .next (withKeys 3 (fun s => writeResult (eeeDecrypt s.cfg s.din s.key1 s.key2 s.key3) s) s)

end Sys2Proof.Machine
end

