-- ==== Sys2Proof/Machine/SingleKey.lean ====
section
/-! DEFINITION. The meanings of the commands of 42_key_schedule_cipher.md (R155 to R158, R160): one key, KEY1,
and KEYLEN = 1. -/

namespace Sys2Proof.Machine

/-- ADDKEY (R155). -/
def execAddkey (s : State) : Host.Outcome State Fault Refusal :=
  .next (withKeys 1 (fun s => writeResult (s.din ^^^ s.key1) s) s)

/-- KEYEXP 0 (R156). -/
def execKeyexp0 (s : State) : Host.Outcome State Fault Refusal :=
  .next (withKeys 1 (fun s => writeResult (expand s.cfg.sbox s.key1).rk0 s) s)

/-- KEYEXP 1 (R156). -/
def execKeyexp1 (s : State) : Host.Outcome State Fault Refusal :=
  .next (withKeys 1 (fun s => writeResult (expand s.cfg.sbox s.key1).rk1 s) s)

/-- KEYEXP 2 (R156). -/
def execKeyexp2 (s : State) : Host.Outcome State Fault Refusal :=
  .next (withKeys 1 (fun s => writeResult (expand s.cfg.sbox s.key1).rk2 s) s)

/-- ENC (R157). -/
def execEnc (s : State) : Host.Outcome State Fault Refusal :=
  .next (withKeys 1 (fun s => writeResult (encrypt s.cfg s.din s.key1) s) s)

/-- DEC (R158). -/
def execDec (s : State) : Host.Outcome State Fault Refusal :=
  .next (withKeys 1 (fun s => writeResult (decrypt s.cfg s.din s.key1) s) s)

end Sys2Proof.Machine
end

