-- ==== Sys2Proof/Machine/Transforms.lean ====
section
/-! DEFINITION. The meanings of the commands of 41_gf16_sbox_transforms.md (R110 to R122). -/

namespace Sys2Proof.Machine

/-- NOP (R111): ERR = OK and nothing else. -/
def execNop (s : State) : Host.Outcome State Fault Refusal := .next (complete s)

/-- GFMUL (R112). -/
def execGfmul (s : State) : Host.Outcome State Fault Refusal :=
  .next (writeResult (zextNibble (multiply (dinFactorA s) (dinFactorB s))) s)

/-- SUBNIB (R113). -/
def execSubnib (s : State) : Host.Outcome State Fault Refusal :=
  .next (writeResult (zextNibble (substituteNibble s.cfg.sbox (dinNibble s) false)) s)

/-- SUBNIB.I (R114). -/
def execSubnibI (s : State) : Host.Outcome State Fault Refusal :=
  .next (writeResult (zextNibble (substituteNibble s.cfg.sbox (dinNibble s) true)) s)

/-- SUBBYTE (R115). -/
def execSubbyte (s : State) : Host.Outcome State Fault Refusal :=
  .next (writeResult (zextByte (substituteByte s.cfg.sbox (dinByte s) false)) s)

/-- SUBBYTE.I (R116). -/
def execSubbyteI (s : State) : Host.Outcome State Fault Refusal :=
  .next (writeResult (zextByte (substituteByte s.cfg.sbox (dinByte s) true)) s)

/-- ROTNIB (R117). -/
def execRotnib (s : State) : Host.Outcome State Fault Refusal :=
  .next (writeResult (zextByte (rotateNibbles (dinByte s))) s)

/-- SUBNIBS (R118). -/
def execSubnibs (s : State) : Host.Outcome State Fault Refusal :=
  .next (writeResult (substituteNibbles s.cfg.sbox s.din false) s)

/-- SUBNIBS.I (R119). -/
def execSubnibsI (s : State) : Host.Outcome State Fault Refusal :=
  .next (writeResult (substituteNibbles s.cfg.sbox s.din true) s)

/-- SHIFTROWS (R120). -/
def execShiftrows (s : State) : Host.Outcome State Fault Refusal :=
  .next (writeResult (shiftRows s.cfg.layout s.din) s)

/-- MIXCOL (R121). -/
def execMixcol (s : State) : Host.Outcome State Fault Refusal :=
  .next (writeResult (mixColumns s.cfg.layout s.din false) s)

/-- MIXCOL.I (R122). -/
def execMixcolI (s : State) : Host.Outcome State Fault Refusal :=
  .next (writeResult (mixColumns s.cfg.layout s.din true) s)

end Sys2Proof.Machine
end

