-- ==== Sys2Proof/Machine/Dispatch.lean ====
section
/-! DEFINITION. Which meaning each command has (R78), one arm per constructor of Instr. -/

namespace Sys2Proof.Machine

def exec (i : Instr) (s : State) : Host.Outcome State Fault Refusal :=
  match i with
  | .nop => Sys2Proof.Machine.execNop s
  | .gfmul => Sys2Proof.Machine.execGfmul s
  | .subnib => Sys2Proof.Machine.execSubnib s
  | .subnibI => Sys2Proof.Machine.execSubnibI s
  | .subbyte => Sys2Proof.Machine.execSubbyte s
  | .subbyteI => Sys2Proof.Machine.execSubbyteI s
  | .rotnib => Sys2Proof.Machine.execRotnib s
  | .subnibs => Sys2Proof.Machine.execSubnibs s
  | .subnibsI => Sys2Proof.Machine.execSubnibsI s
  | .shiftrows => Sys2Proof.Machine.execShiftrows s
  | .mixcol => Sys2Proof.Machine.execMixcol s
  | .mixcolI => Sys2Proof.Machine.execMixcolI s
  | .addkey => Sys2Proof.Machine.execAddkey s
  | .keyexp0 => Sys2Proof.Machine.execKeyexp0 s
  | .keyexp1 => Sys2Proof.Machine.execKeyexp1 s
  | .keyexp2 => Sys2Proof.Machine.execKeyexp2 s
  | .enc => Sys2Proof.Machine.execEnc s
  | .dec => Sys2Proof.Machine.execDec s
  | .denc => Sys2Proof.Machine.execDenc s
  | .ddec => Sys2Proof.Machine.execDdec s
  | .edeenc => Sys2Proof.Machine.execEdeenc s
  | .ededec => Sys2Proof.Machine.execEdedec s
  | .eeeenc => Sys2Proof.Machine.execEeeenc s
  | .eeedec => Sys2Proof.Machine.execEeedec s
  | .cbcei => Sys2Proof.Machine.execCbcei s
  | .cbceb => Sys2Proof.Machine.execCbceb s
  | .cbcek => Sys2Proof.Machine.execCbcek s
  | .cbcef => Sys2Proof.Machine.execCbcef s
  | .cbcdi => Sys2Proof.Machine.execCbcdi s
  | .cbcdb => Sys2Proof.Machine.execCbcdb s
  | .cbcdl => Sys2Proof.Machine.execCbcdl s

end Sys2Proof.Machine
end

