-- ==== Sys2Proof/Machine/Port.lean ====
section
/-! DEFINITION. The register port (R50, R57, R58): what one host event does to the core. -/

namespace Sys2Proof.Machine

/-- Decoding the word just stored in CMD and running its command, or ILLEGAL_CMD (R57, R70, R231). -/
def runCommand (v : Word) (s : State) : Host.Outcome State Fault Refusal :=
  match decode v with
  | .ok i => exec i s
  | .error _ => .next (raise .illegalCmd s)

/-- `BusWrite(a, v)` (R57, R58): v is stored in the register; a write to CMD then runs the command v encodes, even
where v is the word CMD already held (R63). No command reads CMD, so the results are those of the register values
before the write (R57, log entry 14). -/
def busWrite (a : BitVec 4) (v : Word) (s : State) : Host.Outcome State Fault Refusal :=
  match portReg a with
  | .cmd => runCommand v (storeReg .cmd v s)
  | r => .next (storeReg r v s)

/-- One event of the host side (R50, R262). -/
def handleEvent (e : HostEvent) (s : State) : Host.Outcome State Fault Refusal :=
  match e with
  | .busRead a => .next (busReadReply a s)
  | .busWrite a v => busWrite a v s
  | .reset => .next (coreReset s)

/-- The next event in the total order of R59, or none pending: the core takes no step of its own (R20) and holds its
state (R245), so the state is then unchanged (log entry 5). -/
def nextEvent (s : State) : Host.Outcome State Fault Refusal :=
  match s.pending with
  | [] => .next s
  | e :: rest => handleEvent e { s with pending := rest }

end Sys2Proof.Machine
end

