-- ==== Sys2Proof/Machine/Step.lean ====
section
/-! DEFINITION. One step of the machine: the core handles the next transaction of its port (R57, R59, R271: a
model may treat every transaction as one step). -/

namespace Sys2Proof.Machine

/-- One step: the next host event, or nothing where none is pending. -/
def step (s : State) : Host.Outcome State Fault Refusal := nextEvent s

/-- s with the command word w written to CMD by the very next step. The core fetches nothing (R37): a host's write to
CMD is the only way to run a command (R77), so the word stands at the head of the pending events (log entry 4). -/
def State.withFetchWord (s : State) (nbits w : Nat) : State :=
  { s with pending := .busWrite (portIndex .cmd) (commandWord nbits w) :: s.pending }

end Sys2Proof.Machine
end

