-- ==== Sys2Proof/Machine/Chaining.lean ====
section
/-! DEFINITION. CBC over a whole byte string as the source defines it (R190 to R194): chaining, padding and
unpadding, pure functions. The stream laws R205 to R208 and R214 compare the sequencer's commands with them. -/

namespace Sys2Proof.Machine

/-- CBC encryption of Blocks: `C[i] = encrypt(P[i] ^ C[i-1], key)` with `C[-1]` the given chain value (R190). -/
def cbcEncryptBlocks (c : Config) (key : Word) : Word → List Word → List Word
  | _, [] => []
  | prev, p :: ps =>
    encrypt c (p ^^^ prev) key :: cbcEncryptBlocks c key (encrypt c (p ^^^ prev) key) ps

/-- CBC decryption of Blocks: `P[i] = decrypt(C[i], key) ^ C[i-1]` (R190). -/
def cbcDecryptBlocks (c : Config) (key : Word) : Word → List Word → List Word
  | _, [] => []
  | prev, x :: xs => (decrypt c x key ^^^ prev) :: cbcDecryptBlocks c key x xs

/-- `pad(M)` (R191). -/
def pad (m : List Byte) : List Byte :=
  if m.length % 2 = 1 then m ++ [0x01] else m ++ [0x02, 0x02]

/-- A byte string as Blocks, the first byte of each pair high (R56). A last odd byte gives no Block; pad(M)
never has one (R191). -/
def blocksOfBytes : List Byte → List Word
  | a :: b :: rest => joinBytes a b :: blocksOfBytes rest
  | _ => []

/-- The bytes of Blocks, P[15:8] then P[7:0] (R56). -/
def bytesOfBlocks (ps : List Word) : List Byte := ps.flatMap fun p => [hiByte p, loByte p]

/-- The unpadding check on the last decrypted Block (R194): the message bytes that remain of it, or none where it
fails. -/
def unpadLast (p : Word) : Option (List Byte) :=
  if loByte p = 0x01#8 then some [hiByte p]
  else if p = 0x0202#16 then some []
  else none

/-- Unpadding of decrypted Blocks by their last one (R194, R206). For no Block at all it gives none; the core cannot be
given such a ciphertext (R206), and the spec leaves open what the source gives for one (91_not_in_source.md N14;
DESIGN CHOICE, log entry 20). -/
def unpadBlocks : List Word → Option (List Byte)
  | [] => none
  | [p] => unpadLast p
  | p :: q :: rest => (unpadBlocks (q :: rest)).map fun tail => hiByte p :: loByte p :: tail

/-- The source's unpadding of a byte string (R192): the last byte is the pad count, and the string is valid when every
one of its last `pad count` bytes equals the count. The core accepts fewer strings (R194, 90_conflicts.md C7). The
spec leaves two cases open (91_not_in_source.md N12, N14), in which this function gives none: a pad count larger than
the string's length, and the empty string, which has no last byte (DESIGN CHOICE, log entry 20). -/
def sourceUnpad (bs : List Byte) : Option (List Byte) :=
  match bs.getLast? with
  | none => none
  | some n =>
    if n.toNat ≤ bs.length ∧ ∀ b ∈ bs.drop (bs.length - n.toNat), b = n then
      some (bs.take (bs.length - n.toNat))
    else none

/-- The source's CBC ciphertext of the byte string M (R190, R191). -/
def cbcEncrypt (c : Config) (key iv : Word) (m : List Byte) : List Word :=
  cbcEncryptBlocks c key iv (blocksOfBytes (pad m))

/-- The source's unpad of the CBC decryption of a ciphertext (R190, R194, R206). -/
def cbcDecrypt (c : Config) (key iv : Word) (xs : List Word) : Option (List Byte) :=
  unpadBlocks (cbcDecryptBlocks c key iv xs)

end Sys2Proof.Machine
end

