-- ==== Sys2Proof/Machine/HostLang.lean ====
section
/-! DEFINITION. The host command language (R79, R80): its statements, the transactions they are, the expansions
of its pseudo-instructions, and its branch. All of it is host-side: the core sees transactions alone. Two
programs of it, one per direction of CBC, say what the stream laws R205 to R207 run. -/

namespace Sys2Proof.Machine

/-- The statements of R79. -/
inductive HostStmt where
  /-- `WR reg, imm16` -/
  | wr (r : PortReg) (imm : Word)
  /-- `RD reg` -/
  | rd (r : PortReg)
  /-- A command mnemonic of R78, with its operand for KEYEXP. -/
  | cmd (i : Instr)
  /-- `CMDW imm16`: an arbitrary word written to CMD. -/
  | cmdw (imm : Word)
  /-- `label:` -/
  | label (name : String)
  /-- `BNE reg, mask, imm, label`. R79 gives mask and imm no width: the model takes 16 bits, the width of the value read
  that they meet (DESIGN CHOICE, log entry 21). -/
  | bne (r : PortReg) (mask imm : Word) (target : String)
deriving DecidableEq, Repr

/-- The transaction a statement is, or none for the two that are host-side control flow (R79). -/
def stmtEvent : HostStmt → Option HostEvent
  | .wr r imm => some (.busWrite (portIndex r) imm)
  | .rd r => some (.busRead (portIndex r))
  | .cmd i => some (.busWrite (portIndex .cmd) (encode i))
  | .cmdw imm => some (.busWrite (portIndex .cmd) imm)
  | .label _ => none
  | .bne _ _ _ _ => none

/-- The pseudo-instructions of R80. An operand that the expansion gives to WR has the width of WR's imm16, PUTB's b
among them; R80 states no width for it (DEDUCED, log entry 19). -/
inductive HostPseudo where
  | key (k1 : Word)
  | key2 (k1 k2 : Word)
  | key3 (k1 k2 k3 : Word)
  | keyp32 (k : BitVec 32)
  | keyp48 (k : BitVec 48)
  | run (op : Instr) (x : Word)
  | putb (b : Word)
  | putk (blk : Word)
  | getd (c : Word)
  | getl (c : Word)
deriving DecidableEq, Repr

/-- `WR DIN, x ; op ; RD STATUS ; RD DOUT` (R80). -/
def runStmts (op : Instr) (x : Word) : List HostStmt :=
  [.wr .din x, .cmd op, .rd .status, .rd .dout]

/-- `WR KEY1, k1 ; WR KEY2, k2 ; WR KEYLEN, 2` (R80). -/
def twoKeyStmts (k1 k2 : Word) : List HostStmt := [.wr .key1 k1, .wr .key2 k2, .wr .keylen 2]

/-- `WR KEY1, k1 ; WR KEY2, k2 ; WR KEY3, k3 ; WR KEYLEN, 3` (R80). -/
def threeKeyStmts (k1 k2 k3 : Word) : List HostStmt :=
  [.wr .key1 k1, .wr .key2 k2, .wr .key3 k3, .wr .keylen 3]

/-- The expansions of R80, with the key packing of R25 for KEYP32 and KEYP48. -/
def expandPseudo : HostPseudo → List HostStmt
  | .key k1 => [.wr .key1 k1, .wr .keylen 1]
  | .key2 k1 k2 => twoKeyStmts k1 k2
  | .key3 k1 k2 k3 => threeKeyStmts k1 k2 k3
  | .keyp32 k => twoKeyStmts (k.extractLsb' 16 16) (k.extractLsb' 0 16)
  | .keyp48 k => threeKeyStmts (k.extractLsb' 32 16) (k.extractLsb' 16 16) (k.extractLsb' 0 16)
  | .run op x => runStmts op x
  | .putb b => runStmts .cbceb b
  | .putk blk => runStmts .cbcek blk
  | .getd c => runStmts .cbcdb c
  | .getl c => runStmts .cbcdl c

/-- A host that runs a program with exclusive use of the core (R268): its place in the program, which is its own
program counter and no state of the core (R37), its last read of each register, the newest first, and the core. -/
structure HostRun where
  place : Nat
  lastReads : List (PortReg × Word)
  machine : State
deriving DecidableEq, Repr

/-- Why a host program goes no further. -/
inductive HostStop where
  /-- The place is past the last statement. -/
  | ended
  /-- A branch to a label that no statement names; R79 does not say what it does (log entry 12). -/
  | unknownLabel
  /-- A branch on a register the program has not read yet; R79 does not say what it tests (log entry 12). -/
  | neverRead
  /-- The core faulted or refused; it never does. -/
  | coreStopped
deriving DecidableEq, Repr

/-- The value of the last `RD` of a register (R79). -/
def lastRead (r : PortReg) (h : HostRun) : Option Word :=
  (h.lastReads.find? fun x => x.1 == r).map Prod.snd

/-- One transaction of the host program, taken by the core at once (R57). -/
def hostTransact (e : HostEvent) (h : HostRun) : Except HostStop HostRun :=
  match handleEvent e h.machine with
  | .next t => .ok { h with place := h.place + 1, machine := t }
  | .fault _ => .error .coreStopped
  | .refused _ => .error .coreStopped

/-- `BNE` (R79): branch when `(value of the last RD of reg) & mask != imm`. R79 does not say which place a label
means that two statements name: the model takes the first one (DESIGN CHOICE, log entry 12), and it stops where no
statement names the label or the register has not been read (DESIGN CHOICE, log entry 12). -/
def hostBranch (prog : List HostStmt) (r : PortReg) (mask imm : Word) (target : String) (h : HostRun) :
    Except HostStop HostRun :=
  match lastRead r h with
  | none => .error .neverRead
  | some v =>
    if v &&& mask ≠ imm then
      match prog.findIdx? (fun x => x == .label target) with
      | some i => .ok { h with place := i }
      | none => .error .unknownLabel
    else .ok { h with place := h.place + 1 }

/-- One statement of a host program (R79). `RD` records the value read. -/
def hostStep (prog : List HostStmt) (h : HostRun) : Except HostStop HostRun :=
  match prog[h.place]? with
  | none => .error .ended
  | some (.wr r imm) => hostTransact (.busWrite (portIndex r) imm) h
  | some (.rd r) =>
    hostTransact (.busRead (portIndex r))
      { h with lastReads := (r, readReg h.machine r) :: h.lastReads }
  | some (.cmd i) => hostTransact (.busWrite (portIndex .cmd) (encode i)) h
  | some (.cmdw imm) => hostTransact (.busWrite (portIndex .cmd) imm) h
  | some (.label _) => .ok { h with place := h.place + 1 }
  | some (.bne r mask imm target) => hostBranch prog r mask imm target h

/-- The transactions of a program without branches, in order. -/
def programEvents (prog : List HostStmt) : List HostEvent := prog.filterMap stmtEvent

/-- The host program of R205: open an encryption stream with key k and IV iv, give each byte of m, end it. STATUS
and DOUT are read after every stream command that can emit a Block (R266). -/
def encryptProgram (k iv : Word) (m : List Byte) : List HostStmt :=
  expandPseudo (.key k) ++ [.wr .iv iv, .cmd .cbcei] ++ m.flatMap (fun b => expandPseudo (.putb (zextByte b)))
    ++ [.cmd .cbcef, .rd .status, .rd .dout]

/-- The host program of R206: open a decryption stream, give each Block but the last with CBCDB and the last one
with CBCDL. STATUS and DOUT are read after each (R266). -/
def decryptProgram (k iv : Word) (front : List Word) (last : Word) : List HostStmt :=
  expandPseudo (.key k) ++ [.wr .iv iv, .cmd .cbcdi] ++ front.flatMap (fun c => expandPseudo (.getd c))
    ++ expandPseudo (.getl last)

/-- The Blocks a host collects from reads of STATUS and DOUT in turn: DOUT wherever OUTN = 2 (R31, R205, R266). -/
def blocksCollected : List Word → List Word
  | st :: d :: rest =>
    if statusOutn st = 2 then d :: blocksCollected rest else blocksCollected rest
  | _ => []

/-- The OUTN valid bytes of DOUT, high byte first (R31, R56). -/
def validBytes (st d : Word) : List Byte :=
  if statusOutn st = 2 then [hiByte d, loByte d]
  else if statusOutn st = 1 then [hiByte d]
  else []

/-- The bytes a host collects from reads of STATUS and DOUT in turn (R31, R206, R266). -/
def bytesCollected : List Word → List Byte
  | st :: d :: rest => validBytes st d ++ bytesCollected rest
  | _ => []

end Sys2Proof.Machine
end

