-- ==== Sys2Proof/Safety.lean ====
section
/-! DEFINITION. What counts as a safe run, and the vocabulary of the statements: the invariant of every state a run
reaches, frames, the tables of the spec's rules that say which command needs what, and polynomials over GF(2). None
of it is used by the machine. -/

namespace Sys2Proof.Machine

/-- The invariant of every state that a run reaches. -/
structure LegalState (s : State) : Prop where
  /-- ERR is a code of R230; 5, 6 and 7 are never written (R30, U10). -/
  err_legal : s.err.toNat ≤ 4
  /-- OUTN is never 3 (R31, U10). -/
  outn_legal : s.outn ≠ 3
  /-- MODE is never 3 (R32, U10). -/
  mode_legal : s.mode ≠ 3
  /-- "Invariant: when PBV = 0, PBUF = 0x00" (R33). -/
  buffer_empty : s.pbv = 0 → s.pbuf = 0
  /-- A byte is held in an encryption stream alone (R33, R195). -/
  held_in_enc : s.pbv = 1 → s.mode = modeEnc
  /-- OUTN = 1: only DOUT[15:8] is valid output and DOUT[7:0] reads 0 (R31). -/
  one_byte : s.outn = 1 → loByte s.dout = 0
  /-- After an error there is no output (R16, R31). -/
  error_no_output : s.err ≠ errBits .ok → s.outn = 0
  /-- After PADDING the last Block is not shown and the stream is closed (R213, R269). -/
  padding_hides : s.err = errBits .padding → s.dout = 0 ∧ s.mode = modeIdle

/-- The machine goes on: it neither faults nor refuses. -/
def answersNext (o : Host.Outcome State Fault Refusal) : Prop := ∃ t, o = .next t

/-- t is s but for DOUT, OUTN and ERR: every other register, the parameters and the host side are unchanged. -/
def onlyResultChanged (s t : State) : Prop :=
  t = { s with dout := t.dout, outn := t.outn, err := t.err }

/-- t is s but for OUTN and ERR. -/
def onlyErrorChanged (s t : State) : Prop := t = { s with outn := t.outn, err := t.err }

/-- The CBC state is unchanged: MODE, PBV, PBUF, CHAIN and CBCKEY. -/
def sameStream (s t : State) : Prop :=
  t.mode = s.mode ∧ t.pbv = s.pbv ∧ t.pbuf = s.pbuf ∧ t.chain = s.chain ∧ t.cbckey = s.cbckey

/-- The commands of 41_gf16_sbox_transforms.md. -/
def transformCommands : List Instr :=
  [.nop, .gfmul, .subnib, .subnibI, .subbyte, .subbyteI, .rotnib, .subnibs, .subnibsI, .shiftrows, .mixcol,
    .mixcolI]

/-- The commands of 42_key_schedule_cipher.md. -/
def singleKeyCommands : List Instr := [.addkey, .keyexp0, .keyexp1, .keyexp2, .enc, .dec]

/-- The commands of 43_multi_encryption.md. -/
def multiKeyCommands : List Instr := [.denc, .ddec, .edeenc, .ededec, .eeeenc, .eeedec]

/-- How many 16-bit keys a command needs; none for a command that does not read KEYLEN (R75, R232). -/
def keysNeeded : Instr → Option (BitVec 3)
  | .addkey | .keyexp0 | .keyexp1 | .keyexp2 | .enc | .dec | .cbcei | .cbcdi => some 1
  | .denc | .ddec | .edeenc | .ededec => some 2
  | .eeeenc | .eeedec => some 3
  | .nop | .gfmul | .subnib | .subnibI | .subbyte | .subbyteI | .rotnib | .subnibs | .subnibsI | .shiftrows
  | .mixcol | .mixcolI | .cbceb | .cbcek | .cbcef | .cbcdb | .cbcdl => none

/-- A KEY_LENGTH error is due: the command needs a number of keys other than KEYLEN (R232). -/
def keyLengthWrong (i : Instr) (s : State) : Prop := ∃ n, keysNeeded i = some n ∧ s.keylen ≠ n

/-- The conditions of R196 for a SEQUENCE error. -/
def outOfSequence (i : Instr) (s : State) : Prop :=
  (i ∈ [Instr.cbceb, .cbcek, .cbcef] ∧ s.mode ≠ modeEnc) ∨ (i ∈ [Instr.cbcdb, .cbcdl] ∧ s.mode ≠ modeDec)
    ∨ (i = .cbcek ∧ s.pbv = 1)

/-- The last Blocks that the unpadding check accepts (R194). -/
def validLastBlock (p : Word) : Prop := loByte p = 0x01 ∨ (loByte p = 0x02 ∧ hiByte p = 0x02)

/-- A PADDING error is due: CBCDL runs in a decryption stream and the decrypted last Block is not valid (R194,
R234). -/
def paddingWrong (i : Instr) (s : State) : Prop :=
  i = .cbcdl ∧ s.mode = modeDec ∧ ¬ validLastBlock (decrypt s.cfg s.din s.cbckey ^^^ s.chain)

/-- The 31 words of the table of R78, in its order. -/
def legalWords : List Word :=
  [0x0000, 0x0001, 0x0002, 0x0022, 0x0003, 0x0023, 0x0004, 0x0005, 0x0025, 0x0006, 0x0007, 0x0027, 0x0008, 0x0009,
    0x0049, 0x0089, 0x000A, 0x000B, 0x0010, 0x0011, 0x0012, 0x0013, 0x0014, 0x0015, 0x0018, 0x0019, 0x001A, 0x001B,
    0x001C, 0x001D, 0x001E]

/-- The product of two polynomials over GF(2), of degree 3 each: the exclusive-or of a·x^j over the bits j of b. -/
def polyProduct (a b : BitVec 7) : BitVec 7 :=
  (if b.getLsbD 0 then a else 0) ^^^ (if b.getLsbD 1 then a <<< 1 else 0)
    ^^^ (if b.getLsbD 2 then a <<< 2 else 0) ^^^ (if b.getLsbD 3 then a <<< 3 else 0)

/-- k steps of the machine: `Host.Core.run` of the core, written over `step` (`runSteps_eq_run`). -/
def runSteps : Nat → State → Host.Outcome State Fault Refusal
  | 0, s => .next s
  | k + 1, s =>
    match step s with
    | .next t => runSteps k t
    | .fault why => .fault why
    | .refused why => .refused why

/-- The steps of a host program without branches that has exclusive use of the core s (R268), nothing read before. -/
def runProgram (prog : List HostStmt) (s : State) : Host.Outcome State Fault Refusal :=
  runSteps (programEvents prog).length { s with pending := programEvents prog, replies := [] }

/-- DOUT after a command that answers a next state. -/
def resultOf (i : Instr) (s : State) : Option Word :=
  match exec i s with
  | .next t => some t.dout
  | .fault _ => none
  | .refused _ => none

/-- The registers the host can read back, by index: what a program of the host can see of a state. -/
def visible (s : State) : List Word :=
  (List.range 16).map fun a => readReg s (portReg (BitVec.ofNat 4 a))

end Sys2Proof.Machine
end

