-- ==== Sys2Proof/Certificates/Slice0/Obligations.lean ====
section
/-! DEFINITION. The statements for the provers. Each docstring names the rules of spec/ that the statement
formalises or rests on. A statement over every state holds for both values of LAYOUT and for every SBOX, because a
state carries its parameters (log entry 3). Step-level statements write the next host event at the head of
`pending`. -/

open Sys2Proof Sys2Proof.Machine

/-! ## Encoding -/

/-- A word decodes to a command exactly when it is that command's word: no bit of a word is dropped, and each word
has one meaning (rests on R70, R78). -/
def Obligations.DecodeInvertsEncode : Prop :=
  ∀ (v : Word) (i : Instr), decode v = .ok i ↔ v = encode i

/-- R76 and R231: the words that decode to no command are exactly those with one of the five conditions, which are
exactly the 65,505 words outside the table of R78; writing one stores it in CMD, sets ERR = ILLEGAL_CMD and OUTN = 0,
and changes nothing else. -/
def Obligations.IllegalCommandWords : Prop :=
  (∀ v : Word, (∃ why, decode v = .error why) ↔
    (v.extractLsb' 8 8 ≠ 0x00#8
      ∨ v.extractLsb' 0 5 ∈ [0x0C#5, 0x0D#5, 0x0E#5, 0x0F#5, 0x16#5, 0x17#5, 0x1F#5]
      ∨ (v.extractLsb' 5 1 = 1#1 ∧ v.extractLsb' 0 5 ∉ [0x02#5, 0x03#5, 0x05#5, 0x07#5])
      ∨ (v.extractLsb' 6 2 ≠ 0#2 ∧ v.extractLsb' 0 5 ≠ 0x09#5)
      ∨ (v.extractLsb' 0 5 = 0x09#5 ∧ v.extractLsb' 6 2 = 3#2)))
  ∧ (∀ v : Word, (∃ why, decode v = .error why) ↔ v ∉ legalWords)
  ∧ (legalWords.length = 31 ∧ legalWords.Nodup)
  ∧ (Finset.univ.filter fun v : Word => v ∉ legalWords).card = 65505
  ∧ (∀ (s : State) (v : Word) (rest : List HostEvent), (∃ why, decode v = .error why) →
      step { s with pending := .busWrite 0 v :: rest }
        = .next { s with pending := rest, cmd := v, err := 4, outn := 0 })

/-- A few words written out from the fields of R71 and the operations of R72 decode to their commands. -/
def Obligations.SampleWordsDecode : Prop :=
  -- RSV, IDX, INV, OP
  decode 0b00000000_00_0_00001 = .ok .gfmul
  ∧ decode 0b00000000_00_1_00111 = .ok .mixcolI
  ∧ decode 0b00000000_10_0_01001 = .ok .keyexp2
  ∧ decode 0b00000000_00_0_10010 = .ok .edeenc
  ∧ decode 0b00000000_00_0_11110 = .ok .cbcdl

/-! ## The port and the step -/

/-- A write of a word that decodes to i runs exec of i: the step takes the event off the pending ones, stores the word
in CMD, and the rest is exec's. Where nothing is pending the state stays. That exec runs on the state with CMD already
stored is the model's reading (log entry 14, DEDUCED from R57), and so is the step with nothing pending (log entry 5,
DEDUCED from R20 and R245) (rests on R20, R57, R70, R77, R245). -/
def Obligations.StepRunsDecodedCommand : Prop :=
  (∀ (s : State) (v : Word) (i : Instr) (rest : List HostEvent), decode v = .ok i →
    step { s with pending := .busWrite 0 v :: rest } = exec i { s with pending := rest, cmd := v })
  ∧ (∀ s : State, step { s with pending := [] } = .next { s with pending := [] })

/-- R58 and R42: reads have no side effect, so reads in a row return the registers as they stood; a write to a
host-writable register other than CMD stores its value at once; a write to CMD stores its value and runs a command;
a write to a read-only register does nothing. -/
def Obligations.PortTransactions : Prop :=
  (∀ (s : State) (as : List (BitVec 4)),
    runSteps as.length { s with pending := as.map .busRead }
      = .next { s with pending := [], replies := s.replies ++ as.map fun a => readReg s (portReg a) })
  ∧ (∀ (s : State) (v : Word) (rest : List HostEvent),
      step { s with pending := .busWrite 2 v :: rest } = .next { s with pending := rest, din := v }
      ∧ step { s with pending := .busWrite 4 v :: rest } = .next { s with pending := rest, key1 := v }
      ∧ step { s with pending := .busWrite 5 v :: rest } = .next { s with pending := rest, key2 := v }
      ∧ step { s with pending := .busWrite 6 v :: rest } = .next { s with pending := rest, key3 := v }
      ∧ step { s with pending := .busWrite 7 v :: rest }
          = .next { s with pending := rest, keylen := v.extractLsb' 0 3 }
      ∧ step { s with pending := .busWrite 8 v :: rest } = .next { s with pending := rest, iv := v })
  ∧ (∀ (s : State) (v : Word) (rest : List HostEvent), ∃ t,
      step { s with pending := .busWrite 0 v :: rest } = .next t ∧ t.cmd = v
      ∧ ∀ i, decode v = .ok i → exec i { s with pending := rest, cmd := v } = .next t)
  ∧ (∀ (s : State) (a : BitVec 4) (v : Word) (rest : List HostEvent), a ∈ [1, 3, 9, 10, 11, 12, 13, 14, 15] →
      step { s with pending := .busWrite a v :: rest } = .next { s with pending := rest })

/-- What a read of each index returns (R22, R26, R28, R29, R35), and R41: indices 11 to 15 read as 0x0000 and ignore
writes. -/
def Obligations.PortReadMap : Prop :=
  ∀ s : State,
    readReg s (portReg 0) = s.cmd
    ∧ readReg s (portReg 1) = (s.pbv.setWidth 16 <<< 7) ||| (s.mode.setWidth 16 <<< 5)
        ||| (s.outn.setWidth 16 <<< 3) ||| s.err.setWidth 16
    ∧ readReg s (portReg 2) = s.din ∧ readReg s (portReg 3) = s.dout
    ∧ readReg s (portReg 4) = s.key1 ∧ readReg s (portReg 5) = s.key2 ∧ readReg s (portReg 6) = s.key3
    ∧ readReg s (portReg 7) = s.keylen.setWidth 16
    ∧ readReg s (portReg 8) = s.iv ∧ readReg s (portReg 9) = s.chain
    ∧ readReg s (portReg 10) = s.pbuf.setWidth 16
    ∧ (∀ a : BitVec 4, 11 ≤ a.toNat → readReg s (portReg a) = 0
        ∧ ∀ v rest, step { s with pending := .busWrite a v :: rest } = .next { s with pending := rest })

/-- R29: STATUS holds its fields at the places of the table, with bits [15:8] 0; a write to STATUS is ignored; the
fields change only by command and by reset. -/
def Obligations.StatusWordFields : Prop :=
  (∀ s : State, (readReg s (portReg 1)).extractLsb' 0 3 = s.err
    ∧ (readReg s (portReg 1)).extractLsb' 3 2 = s.outn
    ∧ (readReg s (portReg 1)).extractLsb' 5 2 = s.mode
    ∧ (readReg s (portReg 1)).extractLsb' 7 1 = s.pbv
    ∧ (readReg s (portReg 1)).extractLsb' 8 8 = 0#8
    ∧ readReg s (portReg 1) = (s.pbv.setWidth 16 <<< 7) ||| (s.mode.setWidth 16 <<< 5)
        ||| (s.outn.setWidth 16 <<< 3) ||| s.err.setWidth 16)
  ∧ (∀ (s : State) (v : Word) (rest : List HostEvent),
      step { s with pending := .busWrite 1 v :: rest } = .next { s with pending := rest })
  ∧ (∀ (s t : State) (e : HostEvent) (rest : List HostEvent),
      step { s with pending := e :: rest } = .next t → e ≠ .reset → (∀ v, e ≠ .busWrite 0 v) →
      t.err = s.err ∧ t.outn = s.outn ∧ t.mode = s.mode ∧ t.pbv = s.pbv)
  ∧ readReg State.reset (portReg 1) = 0x0000

/-- Which command writes which register, and what only the host writes (the table of R38, with R23, R25, R27, R32 to
R36). -/
def Obligations.RegisterWriters : Prop :=
  ∀ (i : Instr) (s t : State), exec i s = .next t →
    (t.cmd = s.cmd ∧ t.din = s.din ∧ t.key1 = s.key1 ∧ t.key2 = s.key2 ∧ t.key3 = s.key3
      ∧ t.keylen = s.keylen ∧ t.iv = s.iv)
    ∧ (t.cfg = s.cfg ∧ t.pending = s.pending ∧ t.replies = s.replies)
    ∧ (i = .nop → t.outn = s.outn)
    ∧ (i ∈ [Instr.nop, .cbcei, .cbcdi] → t.dout = s.dout)
    ∧ (i ∉ [Instr.cbcei, .cbcdi, .cbcef, .cbcdl] → t.mode = s.mode)
    ∧ (i ∉ [Instr.cbcei, .cbcdi, .cbceb, .cbcef] → t.pbv = s.pbv ∧ t.pbuf = s.pbuf)
    ∧ (i ∉ [Instr.cbcei, .cbcdi, .cbceb, .cbcek, .cbcef, .cbcdb, .cbcdl] → t.chain = s.chain)
    ∧ (i ∉ [Instr.cbcei, .cbcdi] → t.cbckey = s.cbckey)
    ∧ (i = .cbceb → s.pbv = 0 → t.chain = s.chain ∧ t.dout = s.dout)

/-- Transactions take effect one at a time, in order: a step consumes exactly the next event, and what comes after it
has no influence on its effect (rests on R57, R59). -/
def Obligations.TransactionsInOrder : Prop :=
  ∀ (s t : State) (e : HostEvent) (rest later : List HostEvent),
    step { s with pending := e :: rest } = .next t →
    t.pending = rest ∧ step { s with pending := e :: later } = .next { t with pending := later }

/-! ## Reset -/

/-- R260: after reset every stored bit of the core is 0, STATUS and every readable register read 0x0000; reset runs
nothing. The parameters stay (R44); the host's later events and earlier replies are the model's own. -/
def Obligations.ResetClearsEverything : Prop :=
  (State.reset.cmd = 0 ∧ State.reset.din = 0 ∧ State.reset.dout = 0 ∧ State.reset.key1 = 0
    ∧ State.reset.key2 = 0 ∧ State.reset.key3 = 0 ∧ State.reset.keylen = 0 ∧ State.reset.iv = 0
    ∧ State.reset.chain = 0 ∧ State.reset.pbuf = 0 ∧ State.reset.cbckey = 0 ∧ State.reset.err = 0
    ∧ State.reset.outn = 0 ∧ State.reset.mode = 0 ∧ State.reset.pbv = 0)
  ∧ (∀ a : BitVec 4, readReg State.reset (portReg a) = 0x0000)
  ∧ (∀ (s : State) (rest : List HostEvent),
      step { s with pending := .reset :: rest }
        = .next { State.reset with cfg := s.cfg, pending := rest, replies := s.replies })

/-- R263: from reset, every key-using command raises KEY_LENGTH until the host writes KEYLEN; every stream command
except CBCEI and CBCDI raises SEQUENCE until a stream is opened; the transforms work on DIN = 0x0000. -/
def Obligations.FirstCommandAfterReset : Prop :=
  (State.reset.keylen = 0 ∧ State.reset.mode = modeIdle)
  ∧ (∀ (i : Instr) (s : State), keysNeeded i ≠ none → s.keylen = 0 →
      exec i s = .next { s with err := 1, outn := 0 })
  ∧ (∀ (s t : State) (e : HostEvent) (rest : List HostEvent), s.keylen = 0 → (∀ v, e ≠ .busWrite 7 v) →
      step { s with pending := e :: rest } = .next t → t.keylen = 0)
  ∧ (∀ (i : Instr) (s : State), i ∈ [Instr.cbceb, .cbcek, .cbcef, .cbcdb, .cbcdl] → s.mode = modeIdle →
      exec i s = .next { s with err := 3, outn := 0 })
  ∧ (∀ (s t : State) (e : HostEvent) (rest : List HostEvent), s.mode = modeIdle →
      e ≠ .busWrite 0 0x0018 → e ≠ .busWrite 0 0x001C →
      step { s with pending := e :: rest } = .next t → t.mode = modeIdle)
  ∧ (∀ c : Config, exec .nop { State.reset with cfg := c } = .next { State.reset with cfg := c }
      ∧ resultOf .gfmul { State.reset with cfg := c } = some 0
      ∧ resultOf .subnib { State.reset with cfg := c } = some ((sboxAt c.sbox 0).setWidth 16)
      ∧ resultOf .subnibI { State.reset with cfg := c } = some ((sboxInvAt c.sbox 0).setWidth 16)
      ∧ resultOf .subbyte { State.reset with cfg := c } = some ((substituteByte c.sbox 0 false).setWidth 16)
      ∧ resultOf .subbyteI { State.reset with cfg := c } = some ((substituteByte c.sbox 0 true).setWidth 16)
      ∧ resultOf .rotnib { State.reset with cfg := c } = some 0
      ∧ resultOf .subnibs { State.reset with cfg := c } = some (substituteNibbles c.sbox 0 false)
      ∧ resultOf .subnibsI { State.reset with cfg := c } = some (substituteNibbles c.sbox 0 true)
      ∧ resultOf .shiftrows { State.reset with cfg := c } = some 0
      ∧ resultOf .mixcol { State.reset with cfg := c } = some 0
      ∧ resultOf .mixcolI { State.reset with cfg := c } = some 0)

/-! ## Whole-machine invariants -/

/-- Every step keeps the invariant: ERR is a code of R230, OUTN and MODE are never 3, an empty byte buffer is 0x00, a
byte is held in an encryption stream alone, OUTN = 1 leaves DOUT[7:0] = 0, an error leaves no output, and PADDING
leaves DOUT = 0 and MODE = IDLE (rests on R30 to R33, R195, R213, R269). -/
def Obligations.StepKeepsInvariant : Prop :=
  ∀ s t : State, LegalState s → step s = .next t → LegalState t

/-- The invariant holds right after reset (rests on R260). -/
def Obligations.ResetHasInvariant : Prop := LegalState State.reset

/-- The machine never stops: every step from every state answers a next state, because every index is decoded and no
port access faults, nothing traps, and an error is a value of STATUS.ERR (rests on R51, R236, R237). -/
def Obligations.StepAlwaysAnswers : Prop :=
  (∀ s : State, answersNext (step s)) ∧ (∀ (i : Instr) (s : State), answersNext (exec i s))
  ∧ (∀ (k : Nat) (s : State), answersNext (runSteps k s))

/-- LAYOUT and SBOX are fixed for the life of an instance: no run changes them, reset included (rests on R39, R44). -/
def Obligations.ParametersNeverChange : Prop :=
  ∀ (k : Nat) (s t : State), runSteps k s = .next t → t.cfg = s.cfg

/-! ## GF(2^4), S-box and transforms -/

/-- multiply is the product of polynomials over GF(2) reduced modulo x^4 + x + 1: it differs from the unreduced product
by a multiple of the field polynomial (rests on R100). -/
def Obligations.MultiplyIsFieldProduct : Prop :=
  ∀ a b : Nibble, ∃ q : BitVec 3,
    polyProduct (a.setWidth 7) (b.setWidth 7)
      = (multiply a b).setWidth 7 ^^^ polyProduct 0b0010011#7 (q.setWidth 7)

/-- R126: multiply is commutative, 0 and 1 act as they must, every nonzero nibble has an inverse, and the order of
the operands in mixColumns does not matter. -/
def Obligations.MultiplyLaws : Prop :=
  (∀ a b : Nibble, multiply a b = multiply b a)
  ∧ (∀ a : Nibble, multiply 0 a = 0 ∧ multiply a 0 = 0 ∧ multiply 1 a = a)
  ∧ (∀ a : Nibble, a ≠ 0 → ∃ b, multiply a b = 1) ∧ multiply 2 9 = 1
  ∧ (∀ (l : Layout) (b : Word) (inverse : Bool),
      mixColumns l b inverse
        = pack l
            (multiply (s00 l b) (mixDiagonal inverse) ^^^ multiply (s10 l b) (mixOffDiagonal inverse))
            (multiply (s01 l b) (mixDiagonal inverse) ^^^ multiply (s11 l b) (mixOffDiagonal inverse))
            (multiply (s00 l b) (mixOffDiagonal inverse) ^^^ multiply (s10 l b) (mixDiagonal inverse))
            (multiply (s01 l b) (mixOffDiagonal inverse) ^^^ multiply (s11 l b) (mixDiagonal inverse)))

/-- R103 and R125: the inverse table inverts every SBOX, and for the default SBOX it is the table of the rule; inverse
substitution undoes substitution on nibbles, bytes and Blocks; and the other way round. -/
def Obligations.SubstitutionInverse : Prop :=
  (∀ t : SBox,
    (∀ n, sboxInvAt t (sboxAt t n) = n)
    ∧ (∀ n, substituteNibble t (substituteNibble t n false) true = n)
    ∧ (∀ b, substituteByte t (substituteByte t b false) true = b)
    ∧ (∀ x, substituteNibbles t (substituteNibbles t x false) true = x)
    ∧ (∀ n, substituteNibble t (substituteNibble t n true) false = n)
    ∧ (∀ b, substituteByte t (substituteByte t b true) false = b)
    ∧ (∀ x, substituteNibbles t (substituteNibbles t x true) false = x))
  ∧ (allNibbles.map (sboxInvAt defaultSBox)
      = [0xA, 0x5, 0x9, 0xB, 0x1, 0x7, 0x8, 0xF, 0x6, 0x0, 0x2, 0x3, 0xC, 0x4, 0xD, 0xE])

/-- R123 and R124: shiftRows is its own inverse; the inverse mix undoes the forward mix, and the other way round. For
every Block and both layouts. -/
def Obligations.TransformInverses : Prop :=
  ∀ (l : Layout) (x : Word),
    shiftRows l (shiftRows l x) = x
    ∧ mixColumns l (mixColumns l x false) true = x
    ∧ mixColumns l (mixColumns l x true) false = x

/-- R110: the commands of 41_gf16_sbox_transforms.md succeed in every state; they change DOUT, OUTN and ERR alone, and
NOP ERR alone; they read no key register, KEYLEN or MODE; they leave the CBC state unchanged. -/
def Obligations.TransformCommandFrame : Prop :=
  ∀ (i : Instr) (s : State), i ∈ transformCommands → ∃ t, exec i s = .next t ∧ t.err = 0
    ∧ onlyResultChanged s t ∧ sameStream s t
    ∧ (i = .nop → t.dout = s.dout ∧ t.outn = s.outn) ∧ (i ≠ .nop → t.outn = 2)
    ∧ ∀ (k1 k2 k3 : Word) (n : BitVec 3) (m : BitVec 2),
        exec i { s with key1 := k1, key2 := k2, key3 := k3, keylen := n, mode := m }
          = .next { t with key1 := k1, key2 := k2, key3 := k3, keylen := n, mode := m }

/-- R111: NOP (word 0x0000) writes ERR = OK and nothing else, in every MODE. -/
def Obligations.NopClearsError : Prop :=
  decode 0x0000 = .ok .nop
  ∧ (∀ s : State, exec .nop s = .next { s with err := 0 })
  ∧ (∀ s : State, s.err = 4 → s.outn = 2 → ∃ t, exec .nop s = .next t ∧ t.err = 0 ∧ t.outn = 2)
  ∧ State.reset.cmd = encode .nop

/-- R112: GFMUL (word 0x0001) writes the product of DIN[7:4] and DIN[3:0], zero-extended. -/
def Obligations.GfmulResult : Prop :=
  decode 0x0001 = .ok .gfmul
  ∧ (∀ s : State, exec .gfmul s = .next { s with
      dout := (multiply (s.din.extractLsb' 4 4) (s.din.extractLsb' 0 4)).setWidth 16, outn := 2, err := 0 })
  ∧ (∀ s : State, s.din.extractLsb' 4 4 = 0#4 ∨ s.din.extractLsb' 0 4 = 0#4 → resultOf .gfmul s = some 0)
  ∧ (∀ s : State, s.din.extractLsb' 4 4 = 1#4 →
      resultOf .gfmul s = some ((s.din.extractLsb' 0 4).setWidth 16))
  ∧ (∀ s s' : State, s.din.extractLsb' 0 8 = s'.din.extractLsb' 0 8 → resultOf .gfmul s = resultOf .gfmul s')
  ∧ (∀ (s : State) (v : Word), resultOf .gfmul s = some v → v.extractLsb' 4 12 = 0#12)
  ∧ resultOf .gfmul { State.reset with din := 0x0047 } = some 0x000F

/-- R113 to R116, R118 and R119: the substitution commands write the substitution of DIN[3:0], of both nibbles of
DIN[7:0], or of all four nibbles of DIN, by the table SBOX or its inverse. Each nibble is stated by the table entry. -/
def Obligations.SubstitutionCommands : Prop :=
  (decode 0x0002 = .ok .subnib ∧ decode 0x0022 = .ok .subnibI ∧ decode 0x0003 = .ok .subbyte
    ∧ decode 0x0023 = .ok .subbyteI ∧ decode 0x0005 = .ok .subnibs ∧ decode 0x0025 = .ok .subnibsI)
  ∧ (∀ s : State,
      exec .subnib s = .next { s with
        dout := (sboxAt s.cfg.sbox (s.din.extractLsb' 0 4)).setWidth 16, outn := 2, err := 0 }
      ∧ exec .subnibI s = .next { s with
        dout := (sboxInvAt s.cfg.sbox (s.din.extractLsb' 0 4)).setWidth 16, outn := 2, err := 0 }
      ∧ exec .subbyte s = .next { s with
        dout := nib4 0 0 (sboxAt s.cfg.sbox (s.din.extractLsb' 4 4)) (sboxAt s.cfg.sbox (s.din.extractLsb' 0 4)),
        outn := 2, err := 0 }
      ∧ exec .subbyteI s = .next { s with
        dout := nib4 0 0 (sboxInvAt s.cfg.sbox (s.din.extractLsb' 4 4))
          (sboxInvAt s.cfg.sbox (s.din.extractLsb' 0 4)), outn := 2, err := 0 }
      ∧ exec .subnibs s = .next { s with
        dout := nib4 (sboxAt s.cfg.sbox (s.din.extractLsb' 12 4)) (sboxAt s.cfg.sbox (s.din.extractLsb' 8 4))
          (sboxAt s.cfg.sbox (s.din.extractLsb' 4 4)) (sboxAt s.cfg.sbox (s.din.extractLsb' 0 4)),
        outn := 2, err := 0 }
      ∧ exec .subnibsI s = .next { s with
        dout := nib4 (sboxInvAt s.cfg.sbox (s.din.extractLsb' 12 4)) (sboxInvAt s.cfg.sbox (s.din.extractLsb' 8 4))
          (sboxInvAt s.cfg.sbox (s.din.extractLsb' 4 4)) (sboxInvAt s.cfg.sbox (s.din.extractLsb' 0 4)),
        outn := 2, err := 0 })
  ∧ (∀ (s : State) (v : Word), resultOf .subnib s = some v → resultOf .subnibI { s with din := v }
      = some ((s.din.extractLsb' 0 4).setWidth 16))
  ∧ (resultOf .subnib { State.reset with din := 0x000A } = some 0x0000
      ∧ resultOf .subnibI { State.reset with din := 0x0000 } = some 0x000A
      ∧ resultOf .subbyte { State.reset with din := 0x00A7 } = some 0x0005
      ∧ resultOf .subbyteI { State.reset with din := 0x0005 } = some 0x00A7
      ∧ resultOf .subnibs { State.reset with din := 0x1234 } = some 0x4ABD
      ∧ resultOf .subnibs { State.reset with din := 0x0000 } = some 0x9999
      ∧ resultOf .subnibsI { State.reset with din := 0x4ABD } = some 0x1234)

/-- R117: ROTNIB (word 0x0004) swaps the nibbles of DIN[7:0], zero-extended; twice gives the byte back. -/
def Obligations.RotnibResult : Prop :=
  decode 0x0004 = .ok .rotnib
  ∧ (∀ s : State, exec .rotnib s = .next { s with
      dout := nib4 0 0 (s.din.extractLsb' 0 4) (s.din.extractLsb' 4 4), outn := 2, err := 0 })
  ∧ (∀ s : State, s.din.extractLsb' 0 4 = s.din.extractLsb' 4 4 →
      resultOf .rotnib s = some ((s.din.extractLsb' 0 8).setWidth 16))
  ∧ resultOf .rotnib { State.reset with din := 0x003B } = some 0x00B3

/-- R120: SHIFTROWS (word 0x0006) exchanges the two cells of row 1, in each layout; twice restores DIN. -/
def Obligations.ShiftrowsResult : Prop :=
  decode 0x0006 = .ok .shiftrows
  ∧ (∀ s : State, s.cfg.layout = .rowMajor → exec .shiftrows s = .next { s with
      dout := nib4 (s.din.extractLsb' 12 4) (s.din.extractLsb' 8 4) (s.din.extractLsb' 0 4) (s.din.extractLsb' 4 4),
      outn := 2, err := 0 })
  ∧ (∀ s : State, s.cfg.layout = .columnMajor → exec .shiftrows s = .next { s with
      dout := nib4 (s.din.extractLsb' 12 4) (s.din.extractLsb' 0 4) (s.din.extractLsb' 4 4) (s.din.extractLsb' 8 4),
      outn := 2, err := 0 })
  ∧ (∀ (s : State) (v : Word), resultOf .shiftrows s = some v →
      resultOf .shiftrows { s with din := v } = some s.din)
  ∧ (∀ s : State, s10 s.cfg.layout s.din = s11 s.cfg.layout s.din → resultOf .shiftrows s = some s.din)
  ∧ resultOf .shiftrows { State.reset with din := 0x1234 } = some 0x1243
  ∧ resultOf .shiftrows { State.reset with din := 0x1234, cfg := ⟨.columnMajor, defaultSBox⟩ } = some 0x1432

/-- R121 and R122: MIXCOL (0x0007) multiplies the columns by [[1,4],[4,1]] and MIXCOL.I (0x0027) by [[9,2],[2,9]], in
each layout; MIXCOL.I inverts MIXCOL. -/
def Obligations.MixColumnCommands : Prop :=
  (decode 0x0007 = .ok .mixcol ∧ decode 0x0027 = .ok .mixcolI)
  ∧ (∀ s : State, s.cfg.layout = .rowMajor →
      let n0 := s.din.extractLsb' 12 4
      let n1 := s.din.extractLsb' 8 4
      let n2 := s.din.extractLsb' 4 4
      let n3 := s.din.extractLsb' 0 4
      exec .mixcol s = .next { s with
        dout := nib4 (n0 ^^^ multiply 4 n2) (n1 ^^^ multiply 4 n3) (multiply 4 n0 ^^^ n2) (multiply 4 n1 ^^^ n3),
        outn := 2, err := 0 }
      ∧ exec .mixcolI s = .next { s with
        dout := nib4 (multiply 9 n0 ^^^ multiply 2 n2) (multiply 9 n1 ^^^ multiply 2 n3)
          (multiply 2 n0 ^^^ multiply 9 n2) (multiply 2 n1 ^^^ multiply 9 n3), outn := 2, err := 0 })
  ∧ (∀ s : State, s.cfg.layout = .columnMajor →
      let n0 := s.din.extractLsb' 12 4
      let n1 := s.din.extractLsb' 8 4
      let n2 := s.din.extractLsb' 4 4
      let n3 := s.din.extractLsb' 0 4
      exec .mixcol s = .next { s with
        dout := nib4 (n0 ^^^ multiply 4 n1) (multiply 4 n0 ^^^ n1) (n2 ^^^ multiply 4 n3) (multiply 4 n2 ^^^ n3),
        outn := 2, err := 0 }
      ∧ exec .mixcolI s = .next { s with
        dout := nib4 (multiply 9 n0 ^^^ multiply 2 n1) (multiply 2 n0 ^^^ multiply 9 n1)
          (multiply 9 n2 ^^^ multiply 2 n3) (multiply 2 n2 ^^^ multiply 9 n3), outn := 2, err := 0 })
  ∧ (∀ (s : State) (v : Word), resultOf .mixcol s = some v → resultOf .mixcolI { s with din := v } = some s.din)
  ∧ (∀ c : Config, resultOf .mixcol { State.reset with cfg := c } = some 0x0000
      ∧ resultOf .mixcol { State.reset with cfg := c, din := 0xFFFF } = some 0x6666
      ∧ resultOf .mixcolI { State.reset with cfg := c, din := 0xFFFF } = some 0x3333)
  ∧ (resultOf .mixcol { State.reset with din := 0x1234 } = some 0xD17C
      ∧ resultOf .mixcolI { State.reset with din := 0xD17C } = some 0x1234
      ∧ resultOf .mixcol { State.reset with din := 0x1234, cfg := ⟨.columnMajor, defaultSBox⟩ } = some 0x9608
      ∧ resultOf .mixcolI { State.reset with din := 0x9608, cfg := ⟨.columnMajor, defaultSBox⟩ } = some 0x1234)

/-! ## Key schedule, cipher and multi-encryption -/

/-- R155: ADDKEY (word 0x0008) with KEYLEN = 1 writes DIN ^ KEY1, and raises KEY_LENGTH with any other KEYLEN; it is its
own inverse. -/
def Obligations.AddkeyResult : Prop :=
  decode 0x0008 = .ok .addkey
  ∧ (∀ s : State, s.keylen = 1 →
      exec .addkey s = .next { s with dout := s.din ^^^ s.key1, outn := 2, err := 0 })
  ∧ (∀ s : State, s.keylen ≠ 1 → exec .addkey s = .next { s with err := 1, outn := 0 })
  ∧ (∀ (s : State) (v : Word), s.keylen = 1 → resultOf .addkey s = some v →
      resultOf .addkey { s with din := v } = some s.din)
  ∧ (∀ s : State, s.keylen = 1 → s.din = s.key1 → resultOf .addkey s = some 0x0000)
  ∧ resultOf .addkey { State.reset with din := 0x6B6B, key1 := 0xA73B, keylen := 1 } = some 0xCC50

/-- R156, R150 and R151: KEYEXP 0, 1 and 2 (words 0x0009, 0x0049 and 0x0089) with KEYLEN = 1 write the round keys of
KEY1, each word of the schedule stated as the rule writes it; with any other KEYLEN they raise KEY_LENGTH. Word 0x00C9
is illegal, and DIN is not read. -/
def Obligations.KeyexpReadsRoundKeys : Prop :=
  (decode 0x0009 = .ok .keyexp0 ∧ decode 0x0049 = .ok .keyexp1 ∧ decode 0x0089 = .ok .keyexp2
    ∧ ∃ why, decode 0x00C9 = .error why)
  ∧ (∀ s : State, s.keylen = 1 →
      let w0 : Byte := s.key1.extractLsb' 8 8
      let w1 : Byte := s.key1.extractLsb' 0 8
      let w2 : Byte := w0 ^^^ 0x80 ^^^ substituteByte s.cfg.sbox (rotateNibbles w1) false
      let w3 : Byte := w2 ^^^ w1
      let w4 : Byte := w2 ^^^ 0x30 ^^^ substituteByte s.cfg.sbox (rotateNibbles w3) false
      let w5 : Byte := w4 ^^^ w3
      exec .keyexp0 s = .next { s with dout := s.key1, outn := 2, err := 0 }
      ∧ exec .keyexp1 s = .next { s with
          dout := (w2.setWidth 16 <<< 8) ||| w3.setWidth 16, outn := 2, err := 0 }
      ∧ exec .keyexp2 s = .next { s with
          dout := (w4.setWidth 16 <<< 8) ||| w5.setWidth 16, outn := 2, err := 0 }
      ∧ expand s.cfg.sbox s.key1
          = ⟨s.key1, (w2.setWidth 16 <<< 8) ||| w3.setWidth 16, (w4.setWidth 16 <<< 8) ||| w5.setWidth 16⟩)
  ∧ (∀ (i : Instr) (s : State), i ∈ [Instr.keyexp0, .keyexp1, .keyexp2] → s.keylen ≠ 1 →
      exec i s = .next { s with err := 1, outn := 0 })
  ∧ (∀ (i : Instr) (s : State) (d : Word), i ∈ [Instr.keyexp0, .keyexp1, .keyexp2] → s.keylen = 1 →
      resultOf i { s with din := d } = resultOf i s)
  ∧ (rcon1 = 0x80 ∧ rcon2 = 0x30)
  ∧ (expand defaultSBox 0x0000 = ⟨0x0000, 0x1919, 0x0D14⟩
      ∧ expand defaultSBox 0xA73B = ⟨0xA73B, 0x1C27, 0x7651⟩)

/-- R157, R158, R152, R153 and R159: ENC and DEC (words 0x000A and 0x000B) with KEYLEN = 1 write encrypt(DIN, KEY1) and
decrypt(DIN, KEY1), which are the steps of the rules in their order; with any other KEYLEN they raise KEY_LENGTH. DEC
after ENC restores DIN, and the source's example is not a fixed point. -/
def Obligations.EncryptDecryptCommands : Prop :=
  (decode 0x000A = .ok .enc ∧ decode 0x000B = .ok .dec)
  ∧ (∀ s : State, s.keylen = 1 →
      exec .enc s = .next { s with dout := encrypt s.cfg s.din s.key1, outn := 2, err := 0 }
      ∧ exec .dec s = .next { s with dout := decrypt s.cfg s.din s.key1, outn := 2, err := 0 })
  ∧ (∀ s : State, s.keylen ≠ 1 → exec .enc s = .next { s with err := 1, outn := 0 }
      ∧ exec .dec s = .next { s with err := 1, outn := 0 })
  ∧ (∀ (c : Config) (x k : Word),
      let rk := expand c.sbox k
      encrypt c x k = shiftRows c.layout (substituteNibbles c.sbox (mixColumns c.layout (shiftRows c.layout
        (substituteNibbles c.sbox (x ^^^ rk.rk0) false)) false ^^^ rk.rk1) false) ^^^ rk.rk2
      ∧ decrypt c x k = substituteNibbles c.sbox (shiftRows c.layout (mixColumns c.layout (substituteNibbles c.sbox
        (shiftRows c.layout (x ^^^ rk.rk2)) true ^^^ rk.rk1) true)) true ^^^ rk.rk0
      ∧ k ^^^ rk.rk0 = 0)
  ∧ (∀ (s : State) (v : Word), s.keylen = 1 → resultOf .enc s = some v →
      resultOf .dec { s with din := v } = some s.din)
  ∧ (encrypt defaultConfig 0x6B6B 0xA73B = 0x0BEE
      ∧ encrypt ⟨.columnMajor, defaultSBox⟩ 0x6B6B 0xA73B = 0x01D8
      ∧ decrypt defaultConfig 0x0BEE 0xA73B = 0x6B6B
      ∧ decrypt ⟨.columnMajor, defaultSBox⟩ 0x01D8 0xA73B = 0x6B6B
      ∧ encrypt defaultConfig 0x6B6B 0xA73B ≠ 0x6B6B
      ∧ encrypt ⟨.columnMajor, defaultSBox⟩ 0x6B6B 0xA73B ≠ 0x6B6B)

/-- R154: encrypt and decrypt are mutually inverse under every key, so each is a bijection on the Blocks; for every
LAYOUT and every SBOX. -/
def Obligations.EncryptDecryptInverse : Prop :=
  ∀ (c : Config) (k : Word),
    (∀ p, decrypt c (encrypt c p k) k = p) ∧ (∀ x, encrypt c (decrypt c x k) k = x)
    ∧ Function.Bijective (fun p => encrypt c p k) ∧ Function.Bijective (fun x => decrypt c x k)

/-- ENC and DEC can be reproduced with the single-step commands: KEYEXP, ADDKEY with each round key in KEY1, SUBNIBS,
SHIFTROWS and MIXCOL or their inverses, each fed the result of the one before (rests on R152, R153, R155, R244). -/
def Obligations.CipherFromSingleStepCommands : Prop :=
  ∀ s : State, s.keylen = 1 →
    ∃ k0 k1 k2 x0 x1 x2 x3 x4 x5 x6 x7 : Word,
      (resultOf .keyexp0 s = some k0 ∧ resultOf .keyexp1 s = some k1 ∧ resultOf .keyexp2 s = some k2)
      ∧ (resultOf .addkey { s with key1 := k0 } = some x0
        ∧ resultOf .subnibs { s with din := x0 } = some x1 ∧ resultOf .shiftrows { s with din := x1 } = some x2
        ∧ resultOf .mixcol { s with din := x2 } = some x3
        ∧ resultOf .addkey { s with din := x3, key1 := k1 } = some x4
        ∧ resultOf .subnibs { s with din := x4 } = some x5 ∧ resultOf .shiftrows { s with din := x5 } = some x6
        ∧ resultOf .addkey { s with din := x6, key1 := k2 } = some x7 ∧ resultOf .enc s = some x7)
      ∧ (resultOf .addkey { s with din := x7, key1 := k2 } = some x6
        ∧ resultOf .shiftrows { s with din := x6 } = some x5 ∧ resultOf .subnibsI { s with din := x5 } = some x4
        ∧ resultOf .addkey { s with din := x4, key1 := k1 } = some x3
        ∧ resultOf .mixcolI { s with din := x3 } = some x2
        ∧ resultOf .shiftrows { s with din := x2 } = some x1 ∧ resultOf .subnibsI { s with din := x1 } = some x0
        ∧ resultOf .addkey { s with din := x0, key1 := k0 } = some s.din
        ∧ resultOf .dec { s with din := x7 } = some s.din)

/-- R175, R176 and R170: DENC and DDEC (words 0x0010 and 0x0011) with KEYLEN = 2 write E_k2(E_k1(P)) and
D_k1(D_k2(C)); with any other KEYLEN they raise KEY_LENGTH. KEY3 is not read, the order of the keys matters, and DDEC
inverts DENC. -/
def Obligations.DoubleCommands : Prop :=
  (decode 0x0010 = .ok .denc ∧ decode 0x0011 = .ok .ddec)
  ∧ (∀ s : State, s.keylen = 2 →
      exec .denc s = .next { s with
        dout := encrypt s.cfg (encrypt s.cfg s.din s.key1) s.key2, outn := 2, err := 0 }
      ∧ exec .ddec s = .next { s with
        dout := decrypt s.cfg (decrypt s.cfg s.din s.key2) s.key1, outn := 2, err := 0 })
  ∧ (∀ s : State, s.keylen ≠ 2 → exec .denc s = .next { s with err := 1, outn := 0 }
      ∧ exec .ddec s = .next { s with err := 1, outn := 0 })
  ∧ (∀ (s : State) (k : Word), resultOf .denc { s with key3 := k } = resultOf .denc s)
  ∧ (∀ (s : State) (v : Word), s.keylen = 2 → resultOf .denc s = some v →
      resultOf .ddec { s with din := v } = some s.din)
  ∧ doubleEncrypt defaultConfig 0x6B6B 0xC0C3 0xA73B ≠ doubleEncrypt defaultConfig 0x6B6B 0xA73B 0xC0C3
  ∧ (doubleEncrypt defaultConfig 0x6B6B 0xA73B 0xC0C3 = 0x43AE
      ∧ doubleEncrypt ⟨.columnMajor, defaultSBox⟩ 0x6B6B 0xA73B 0xC0C3 = 0xC158
      ∧ doubleDecrypt defaultConfig 0x43AE 0xA73B 0xC0C3 = 0x6B6B)
  ∧ (encrypt defaultConfig 0x6B6B 0xA73B = 0x0BEE ∧ encrypt ⟨.columnMajor, defaultSBox⟩ 0x6B6B 0xA73B = 0x01D8)

/-- R177, R178 and R171: EDEENC and EDEDEC (words 0x0012 and 0x0013) with KEYLEN = 2 write E_k1(D_k2(E_k1(P))) and
D_k1(E_k2(D_k1(C))); with any other KEYLEN they raise KEY_LENGTH. With KEY1 = KEY2, EDEENC gives what encrypt with KEY1
gives; KEY3 is not read; EDEDEC inverts EDEENC. -/
def Obligations.EdeCommands : Prop :=
  (decode 0x0012 = .ok .edeenc ∧ decode 0x0013 = .ok .ededec)
  ∧ (∀ s : State, s.keylen = 2 →
      exec .edeenc s = .next { s with
        dout := encrypt s.cfg (decrypt s.cfg (encrypt s.cfg s.din s.key1) s.key2) s.key1, outn := 2, err := 0 }
      ∧ exec .ededec s = .next { s with
        dout := decrypt s.cfg (encrypt s.cfg (decrypt s.cfg s.din s.key1) s.key2) s.key1, outn := 2, err := 0 })
  ∧ (∀ s : State, s.keylen ≠ 2 → exec .edeenc s = .next { s with err := 1, outn := 0 }
      ∧ exec .ededec s = .next { s with err := 1, outn := 0 })
  ∧ (∀ (s : State) (k : Word), resultOf .edeenc { s with key3 := k } = resultOf .edeenc s)
  ∧ (∀ s : State, s.keylen = 2 → s.key1 = s.key2 →
      resultOf .edeenc s = resultOf .enc { s with keylen := 1 })
  ∧ (∀ (s : State) (v : Word), s.keylen = 2 → resultOf .edeenc s = some v →
      resultOf .ededec { s with din := v } = some s.din)
  ∧ (edeEncrypt defaultConfig 0x6B6B 0xA73B 0xC0C3 = 0x1271
      ∧ edeEncrypt ⟨.columnMajor, defaultSBox⟩ 0x6B6B 0xA73B 0xC0C3 = 0x6CCB
      ∧ edeDecrypt defaultConfig 0x1271 0xA73B 0xC0C3 = 0x6B6B)
  ∧ (encrypt defaultConfig 0x6B6B 0xA73B = 0x0BEE ∧ decrypt defaultConfig 0x0BEE 0xC0C3 = 0x7DEC)

/-- R179, R180 and R172: EEEENC and EEEDEC (words 0x0014 and 0x0015) with KEYLEN = 3 write E_k3(E_k2(E_k1(P))) and
D_k1(D_k2(D_k3(C))); with any other KEYLEN they raise KEY_LENGTH. EEEDEC inverts EEEENC. -/
def Obligations.EeeCommands : Prop :=
  (decode 0x0014 = .ok .eeeenc ∧ decode 0x0015 = .ok .eeedec)
  ∧ (∀ s : State, s.keylen = 3 →
      exec .eeeenc s = .next { s with
        dout := encrypt s.cfg (encrypt s.cfg (encrypt s.cfg s.din s.key1) s.key2) s.key3, outn := 2, err := 0 }
      ∧ exec .eeedec s = .next { s with
        dout := decrypt s.cfg (decrypt s.cfg (decrypt s.cfg s.din s.key3) s.key2) s.key1, outn := 2, err := 0 })
  ∧ (∀ s : State, s.keylen ≠ 3 → exec .eeeenc s = .next { s with err := 1, outn := 0 }
      ∧ exec .eeedec s = .next { s with err := 1, outn := 0 })
  ∧ (∀ (s : State) (v : Word), s.keylen = 3 → resultOf .eeeenc s = some v →
      resultOf .eeedec { s with din := v } = some s.din)
  ∧ (eeeEncrypt defaultConfig 0x6B6B 0xA73B 0xC0C3 0x3C3C = 0xBCB3
      ∧ eeeEncrypt ⟨.columnMajor, defaultSBox⟩ 0x6B6B 0xA73B 0xC0C3 0x3C3C = 0x3170
      ∧ eeeDecrypt defaultConfig 0xBCB3 0xA73B 0xC0C3 0x3C3C = 0x6B6B)
  ∧ (encrypt defaultConfig 0x6B6B 0xA73B = 0x0BEE ∧ encrypt defaultConfig 0x0BEE 0xC0C3 = 0x43AE)

/-- R173: for all three constructions, decryption with the same keys gives the plaintext back. -/
def Obligations.MultiEncryptionRoundTrip : Prop :=
  ∀ (c : Config) (p k1 k2 k3 : Word),
    doubleDecrypt c (doubleEncrypt c p k1 k2) k1 k2 = p
    ∧ edeDecrypt c (edeEncrypt c p k1 k2) k1 k2 = p
    ∧ eeeDecrypt c (eeeEncrypt c p k1 k2 k3) k1 k2 k3 = p

/-- R181: EDE with k1 = k2 collapses to single encryption; the middle value of Double is reached from both ends; EEE
without k3's step is Double. -/
def Obligations.MultiEncryptionIdentities : Prop :=
  ∀ (c : Config) (p x k k1 k2 k3 : Word),
    edeEncrypt c p k k = encrypt c p k ∧ edeDecrypt c x k k = decrypt c x k
    ∧ encrypt c p k1 = decrypt c (doubleEncrypt c p k1 k2) k2
    ∧ eeeEncrypt c p k1 k2 k3 = encrypt c (doubleEncrypt c p k1 k2) k3

/-- The commands of 42_key_schedule_cipher.md and 43_multi_encryption.md, when KEYLEN is what they need, write DOUT,
OUTN = 2 and ERR = OK and nothing else; when it is not, ERR and OUTN alone. They neither read nor write the CBC state
(rests on R160, R182). -/
def Obligations.KeyCommandFrame : Prop :=
  ∀ (i : Instr) (s : State), i ∈ singleKeyCommands ++ multiKeyCommands → ∃ t, exec i s = .next t
    ∧ sameStream s t
    ∧ (keysNeeded i = some s.keylen → onlyResultChanged s t ∧ t.outn = 2 ∧ t.err = 0)
    ∧ (keysNeeded i ≠ some s.keylen → onlyErrorChanged s t ∧ t.outn = 0 ∧ t.err = 1)
    ∧ (∀ (m : BitVec 2) (v : BitVec 1) (b : Byte) (ch k : Word),
        exec i { s with mode := m, pbv := v, pbuf := b, chain := ch, cbckey := k }
          = .next { t with mode := m, pbv := v, pbuf := b, chain := ch, cbckey := k })

/-! ## Errors -/

/-- R232: a command that needs keys compares KEYLEN with their number first; where they differ, ERR = KEY_LENGTH and
OUTN = 0 and nothing else changes; where they agree no key value fails; the other commands do not read KEYLEN. -/
def Obligations.KeyLengthCheck : Prop :=
  (∀ (i : Instr) (s : State) (n : BitVec 3), keysNeeded i = some n → s.keylen ≠ n →
    exec i s = .next { s with err := 1, outn := 0 })
  ∧ (∀ (i : Instr) (s : State), keysNeeded i = some s.keylen → ∃ t, exec i s = .next t ∧ t.err = 0)
  ∧ (∀ (i : Instr) (s : State) (n : BitVec 3), keysNeeded i = none →
      ∃ t, exec i s = .next t ∧ t.err ≠ 1 ∧ exec i { s with keylen := n } = .next { t with keylen := n })

/-- R196 and R233: a stream command in the wrong MODE, and CBCEK with a byte held, write ERR = SEQUENCE and OUTN = 0 and
change nothing else, so an open stream stays open; no other command raises SEQUENCE. -/
def Obligations.SequenceErrors : Prop :=
  (∀ (i : Instr) (s : State), outOfSequence i s → exec i s = .next { s with err := 3, outn := 0 })
  ∧ (∀ (i : Instr) (s : State), ¬ outOfSequence i s → ∃ t, exec i s = .next t ∧ t.err ≠ 3)
  ∧ (∀ s : State, ¬ outOfSequence .cbcei s ∧ ¬ outOfSequence .cbcdi s)

/-- R230 and R235: the error of every command write. At most one condition holds of a command, and ERR is then its
code; where none holds ERR is OK. An illegal word gives 4 and stays readable in CMD. -/
def Obligations.ErrorOfEveryCommand : Prop :=
  (∀ (i : Instr) (s : State), ¬ (keyLengthWrong i s ∧ outOfSequence i s)
    ∧ ¬ (keyLengthWrong i s ∧ paddingWrong i s) ∧ ¬ (outOfSequence i s ∧ paddingWrong i s))
  ∧ (∀ (i : Instr) (s : State), ∃ t, exec i s = .next t
      ∧ (keyLengthWrong i s → t.err = 1) ∧ (paddingWrong i s → t.err = 2) ∧ (outOfSequence i s → t.err = 3)
      ∧ (¬ keyLengthWrong i s → ¬ paddingWrong i s → ¬ outOfSequence i s → t.err = 0))
  ∧ (∀ (s : State) (v : Word) (rest : List HostEvent), v ∉ legalWords →
      ∃ t, step { s with pending := .busWrite 0 v :: rest } = .next t ∧ t.err = 4 ∧ readReg t (portReg 0) = v)

/-- R236: errors are precise. Every error but PADDING leaves all state as it stood but for CMD, ERR and OUTN; PADDING
makes exactly the extra writes of R234. -/
def Obligations.ErrorsArePrecise : Prop :=
  ∀ (s t : State) (v : Word) (rest : List HostEvent), step { s with pending := .busWrite 0 v :: rest } = .next t →
    (t.err ≠ 0 → t.err ≠ 2 → t = { s with pending := rest, cmd := v, err := t.err, outn := 0 })
    ∧ (t.err = 2 → t = { s with
        pending := rest, cmd := v, err := 2, outn := 0, dout := 0, mode := modeIdle, chain := s.din })

/-- R246: each command's ERR replaces the last one's, so no command's effect depends on the ERR before it. -/
def Obligations.ErrorNotSticky : Prop :=
  ∀ (s : State) (v : Word) (rest : List HostEvent) (e : BitVec 3),
    step { s with pending := .busWrite 0 v :: rest, err := e } = step { s with pending := .busWrite 0 v :: rest }

/-! ## CBC -/

/-- R195: the table of MODE transitions, row by row. -/
def Obligations.ModeTransitions : Prop :=
  (∀ s : State, s.keylen = 1 →
      (∃ t, exec .cbcei s = .next t ∧ t.mode = modeEnc ∧ t.err = 0 ∧ t.outn = 0 ∧ t.pbv = 0)
      ∧ ∃ t, exec .cbcdi s = .next t ∧ t.mode = modeDec ∧ t.err = 0 ∧ t.outn = 0 ∧ t.pbv = 0)
  ∧ (∀ (i : Instr) (s : State), i ∈ [Instr.cbcei, .cbcdi] → s.keylen ≠ 1 →
      ∃ t, exec i s = .next t ∧ t.mode = s.mode ∧ t.err = 1)
  ∧ (∀ (i : Instr) (s : State), i ∈ [Instr.cbceb, .cbcek] → s.mode = modeEnc →
      ∃ t, exec i s = .next t ∧ t.mode = modeEnc)
  ∧ (∀ s : State, s.mode = modeEnc → ∃ t, exec .cbcef s = .next t ∧ t.mode = modeIdle ∧ t.err = 0)
  ∧ (∀ s : State, s.mode = modeDec → ∃ t, exec .cbcdb s = .next t ∧ t.mode = modeDec ∧ t.err = 0)
  ∧ (∀ s : State, s.mode = modeDec →
      ∃ t, exec .cbcdl s = .next t ∧ t.mode = modeIdle ∧ (t.err = 0 ∨ t.err = 2))
  ∧ (∀ (i : Instr) (s : State), i ∈ [Instr.cbceb, .cbcek, .cbcef] → s.mode ≠ modeEnc →
      ∃ t, exec i s = .next t ∧ t.mode = s.mode ∧ t.err = 3)
  ∧ (∀ (i : Instr) (s : State), i ∈ [Instr.cbcdb, .cbcdl] → s.mode ≠ modeDec →
      ∃ t, exec i s = .next t ∧ t.mode = s.mode ∧ t.err = 3)
  ∧ (∀ (i : Instr) (s t : State), i ∈ transformCommands ++ singleKeyCommands ++ multiKeyCommands →
      exec i s = .next t → t.mode = s.mode)
  ∧ (∀ (s : State) (rest : List HostEvent),
      ∃ t, step { s with pending := .reset :: rest } = .next t ∧ t.mode = modeIdle)

/-- Writes to the registers other than CMD, and the commands of files 41, 42 and 43, do not change a stream, and the
commands of an open stream read neither KEY1, KEY2, KEY3 and KEYLEN nor IV (rests on R197). -/
def Obligations.StreamKeepsItsKey : Prop :=
  (∀ (s : State) (a : BitVec 4) (v : Word) (rest : List HostEvent), a ≠ 0 →
    ∃ t, step { s with pending := .busWrite a v :: rest } = .next t ∧ sameStream s t)
  ∧ (∀ (i : Instr) (s : State), i ∈ transformCommands ++ singleKeyCommands ++ multiKeyCommands →
      ∃ t, exec i s = .next t ∧ sameStream s t)
  ∧ (∀ (i : Instr) (s : State) (k1 k2 k3 v : Word) (n : BitVec 3),
      i ∈ [Instr.cbceb, .cbcek, .cbcef, .cbcdb, .cbcdl] → ∃ t, exec i s = .next t
        ∧ t.cbckey = s.cbckey
        ∧ exec i { s with key1 := k1, key2 := k2, key3 := k3, keylen := n, iv := v }
            = .next { t with key1 := k1, key2 := k2, key3 := k3, keylen := n, iv := v })

/-- R200 and R209: CBCEI and CBCDI (words 0x0018 and 0x001C) with KEYLEN = 1 latch KEY1 and IV, empty the byte buffer
and open a stream, in any MODE; with any other KEYLEN they raise KEY_LENGTH and change nothing else. -/
def Obligations.OpenStreamCommands : Prop :=
  (decode 0x0018 = .ok .cbcei ∧ decode 0x001C = .ok .cbcdi)
  ∧ (∀ s : State, s.keylen = 1 →
      exec .cbcei s = .next { s with
        cbckey := s.key1, chain := s.iv, pbv := 0, pbuf := 0, mode := 1, outn := 0, err := 0 }
      ∧ exec .cbcdi s = .next { s with
        cbckey := s.key1, chain := s.iv, pbv := 0, pbuf := 0, mode := 2, outn := 0, err := 0 })
  ∧ (∀ s : State, s.keylen ≠ 1 → exec .cbcei s = .next { s with err := 1, outn := 0 }
      ∧ exec .cbcdi s = .next { s with err := 1, outn := 0 })
  ∧ (∀ s : State, s.keylen = 1 → (∃ t, exec .cbcei s = .next t ∧ statusWord t = 0x0020)
      ∧ ∃ t, exec .cbcdi s = .next t ∧ statusWord t = 0x0040)

/-- R201: CBCEB (word 0x0019) in MODE ENC holds the first byte of a block and, on the second, emits the encryption of
the block with the first byte high; in any other MODE it raises SEQUENCE. DIN[15:8] is ignored. -/
def Obligations.CbcebResult : Prop :=
  decode 0x0019 = .ok .cbceb
  ∧ (∀ s : State, s.mode = 1 → s.pbv = 0 → exec .cbceb s = .next { s with
      pbuf := s.din.extractLsb' 0 8, pbv := 1, outn := 0, err := 0 })
  ∧ (∀ s : State, s.mode = 1 → s.pbv = 1 →
      let blk : Word := (s.pbuf.setWidth 16 <<< 8) ||| (s.din.extractLsb' 0 8).setWidth 16
      let c := encrypt s.cfg (blk ^^^ s.chain) s.cbckey
      exec .cbceb s = .next { s with chain := c, dout := c, pbv := 0, pbuf := 0, outn := 2, err := 0 })
  ∧ (∀ s : State, s.mode ≠ 1 → exec .cbceb s = .next { s with err := 3, outn := 0 })
  ∧ (∃ t, exec .cbceb { State.reset with
        mode := 1, chain := 0xF0F0, cbckey := 0xA73B, pbuf := 0x48, pbv := 1, din := 0x69 } = .next t
      ∧ t.dout = 0x4532 ∧ t.chain = 0x4532 ∧ statusWord t = 0x0030)
  ∧ (∃ t, exec .cbceb { State.reset with
        cfg := ⟨.columnMajor, defaultSBox⟩, mode := 1, chain := 0xF0F0, cbckey := 0xA73B, pbuf := 0x48, pbv := 1,
        din := 0x69 } = .next t
      ∧ t.dout = 0x4FB0 ∧ t.chain = 0x4FB0 ∧ statusWord t = 0x0030)

/-- R202: CBCEK (word 0x001A) in MODE ENC with no byte held emits the encryption of the Block in DIN, 0x0202 included;
otherwise it raises SEQUENCE. In a state of the invariant it has the effect of CBCEB with DIN[15:8], then DIN[7:0]. -/
def Obligations.CbcekResult : Prop :=
  decode 0x001A = .ok .cbcek
  ∧ (∀ s : State, s.mode = 1 → s.pbv = 0 →
      let c := encrypt s.cfg (s.din ^^^ s.chain) s.cbckey
      exec .cbcek s = .next { s with chain := c, dout := c, outn := 2, err := 0 })
  ∧ (∀ s : State, s.mode ≠ 1 ∨ s.pbv = 1 → exec .cbcek s = .next { s with err := 3, outn := 0 })
  ∧ (∀ s : State, LegalState s → s.mode = 1 → s.pbv = 0 → ∃ t u, exec .cbcek s = .next t
      ∧ exec .cbceb { s with din := (hiByte s.din).setWidth 16 } = .next u
      ∧ exec .cbceb { u with din := (loByte s.din).setWidth 16 }
          = .next { t with din := (loByte s.din).setWidth 16 })
  ∧ resultOf .cbcek { State.reset with mode := 1, chain := 0xF0F0, cbckey := 0xA73B, din := 0x4869 } = some 0x4532

/-- R203: CBCEF (word 0x001B) in MODE ENC pads the held byte with 0x01, or emits the Block 0x0202 where none is held,
and closes the stream; in any other MODE it raises SEQUENCE. DIN is not read. -/
def Obligations.CbcefResult : Prop :=
  decode 0x001B = .ok .cbcef
  ∧ (∀ s : State, s.mode = 1 →
      let blk : Word := if s.pbv = 1 then (s.pbuf.setWidth 16 <<< 8) ||| 0x01 else 0x0202
      let c := encrypt s.cfg (blk ^^^ s.chain) s.cbckey
      exec .cbcef s = .next { s with chain := c, dout := c, pbv := 0, pbuf := 0, mode := 0, outn := 2, err := 0 })
  ∧ (∀ s : State, s.mode ≠ 1 → exec .cbcef s = .next { s with err := 3, outn := 0 })
  ∧ (∀ (s : State) (d : Word), resultOf .cbcef { s with din := d } = resultOf .cbcef s)
  ∧ (∀ s : State, s.keylen = 1 → ∃ t u, exec .cbcei s = .next t ∧ exec .cbcef t = .next u
      ∧ u.dout = encrypt s.cfg (0x0202 ^^^ s.iv) s.key1)
  ∧ (resultOf .cbcef { State.reset with mode := 1, chain := 0xF0F0, cbckey := 0xA73B } = some 0x102C
      ∧ resultOf .cbcef { State.reset with
          mode := 1, chain := 0xF0F0, cbckey := 0xA73B, cfg := ⟨.columnMajor, defaultSBox⟩ } = some 0x1D51
      ∧ resultOf .cbcef { State.reset with
          mode := 1, chain := 0x4532, cbckey := 0xA73B, pbv := 1, pbuf := 0x21 } = some 0xF785)

/-- R210: CBCDB (word 0x001D) in MODE DEC writes decrypt(DIN, CBCKEY) ^ CHAIN and takes DIN as the chain value, with no
padding check; the host takes DOUT[15:8], then DOUT[7:0], as output bytes. In any other MODE it raises SEQUENCE. -/
def Obligations.CbcdbResult : Prop :=
  decode 0x001D = .ok .cbcdb
  ∧ (∀ s : State, s.mode = 2 → exec .cbcdb s = .next { s with
      dout := decrypt s.cfg s.din s.cbckey ^^^ s.chain, chain := s.din, outn := 2, err := 0 })
  ∧ (∀ s : State, s.mode = 2 → ∃ t, exec .cbcdb s = .next t
      ∧ validBytes (statusWord t) t.dout = [t.dout.extractLsb' 8 8, t.dout.extractLsb' 0 8])
  ∧ (∀ s : State, s.mode ≠ 2 → exec .cbcdb s = .next { s with err := 3, outn := 0 })
  ∧ (∃ t, exec .cbcdb { State.reset with mode := 2, chain := 0xF0F0, cbckey := 0xA73B, din := 0x4532 } = .next t
      ∧ t.dout = 0x4869 ∧ t.chain = 0x4532 ∧ statusWord t = 0x0050)

/-- R211: CBCDL (word 0x001E) in MODE DEC decrypts the last Block p, closes the stream and takes DIN as
the chain value; the outcome is that of the table of R212 by p. In any other MODE it raises SEQUENCE. -/
def Obligations.CbcdlResult : Prop :=
  decode 0x001E = .ok .cbcdl
  ∧ (∀ s : State, s.mode = 2 →
      let p := decrypt s.cfg s.din s.cbckey ^^^ s.chain
      (loByte p = 0x01 → exec .cbcdl s = .next { s with
        chain := s.din, mode := 0, dout := p &&& 0xFF00, outn := 1, err := 0 })
      ∧ (p = 0x0202 → exec .cbcdl s = .next { s with
        chain := s.din, mode := 0, dout := 0, outn := 0, err := 0 })
      ∧ (loByte p = 0x02 ∧ hiByte p ≠ 0x02 → exec .cbcdl s = .next { s with
        chain := s.din, mode := 0, dout := 0, outn := 0, err := 2 })
      ∧ (loByte p = 0x00 → exec .cbcdl s = .next { s with
        chain := s.din, mode := 0, dout := 0, outn := 0, err := 2 })
      ∧ (0x03 ≤ (loByte p).toNat → exec .cbcdl s = .next { s with
        chain := s.din, mode := 0, dout := 0, outn := 0, err := 2 }))
  ∧ (∀ s : State, s.mode ≠ 2 → exec .cbcdl s = .next { s with err := 3, outn := 0 })
  ∧ (∃ t, exec .cbcdl { State.reset with mode := 2, chain := 0x4532, cbckey := 0xA73B, din := 0xF785 } = .next t
      ∧ t.dout = 0x2100 ∧ t.outn = 1 ∧ statusWord t = 0x0008)

/-- CBC chaining of Blocks, block by block: C[i] = encrypt(P[i] ^ C[i-1], key) and
P[i] = decrypt(C[i], key) ^ C[i-1], with C[-1] = IV (rests on R190). -/
def Obligations.ChainingEquations : Prop :=
  ∀ (c : Config) (k iv : Word) (xs : List Word) (i : Nat) (x : Word), xs[i]? = some x →
    (∃ prev, (iv :: cbcEncryptBlocks c k iv xs)[i]? = some prev
      ∧ (cbcEncryptBlocks c k iv xs)[i]? = some (encrypt c (x ^^^ prev) k))
    ∧ (∃ prev, (iv :: xs)[i]? = some prev ∧ (cbcDecryptBlocks c k iv xs)[i]? = some (decrypt c x k ^^^ prev))
    ∧ (cbcEncryptBlocks c k iv xs).length = xs.length ∧ (cbcDecryptBlocks c k iv xs).length = xs.length

/-- R191 and R193: pad(M) has length L + 1 or L + 2, even and at least 2; its last Block is the last odd byte and
0x01, or 0x0202, and its other Blocks hold two bytes of M each. -/
def Obligations.PaddedBlocks : Prop :=
  (∀ m : List Byte, (m.length % 2 = 1 → pad m = m ++ [0x01]) ∧ (m.length % 2 = 0 → pad m = m ++ [0x02, 0x02])
    ∧ (pad m).length % 2 = 0 ∧ 2 ≤ (pad m).length
    ∧ bytesOfBlocks (blocksOfBytes (pad m)) = pad m)
  ∧ (∀ (m : List Byte) (x : Byte), m.length % 2 = 0 →
      blocksOfBytes (pad (m ++ [x])) = blocksOfBytes m ++ [(x.setWidth 16 <<< 8) ||| 0x01]
      ∧ blocksOfBytes (pad m) = blocksOfBytes m ++ [0x0202] ∧ bytesOfBlocks (blocksOfBytes m) = m)

/-- R194: the core's check accepts exactly the last Blocks that pad() can produce, and unpadding gives the message back;
on an accepted last Block it agrees with the source's unpadding of the whole string (R192). -/
def Obligations.UnpadAcceptsPaddedBlocks : Prop :=
  (∀ p : Word, (unpadLast p).isSome = true ↔ validLastBlock p)
  ∧ (∀ p : Word, validLastBlock p ↔ ∃ m, (blocksOfBytes (pad m)).getLast? = some p)
  ∧ (∀ m : List Byte, unpadBlocks (blocksOfBytes (pad m)) = some m)
  ∧ (∀ (ps : List Word) (p : Word), ¬ validLastBlock p → unpadBlocks (ps ++ [p]) = none)
  ∧ (∀ (ps : List Word) (p : Word), validLastBlock p →
      unpadBlocks (ps ++ [p]) = sourceUnpad (bytesOfBlocks (ps ++ [p])) ∧ unpadBlocks (ps ++ [p]) ≠ none)

/-- R205: running CBCEI, CBCEB with each byte of M, then CBCEF, the Blocks in DOUT after each command that writes
OUTN = 2 are exactly the source's CBC ciphertext of M, floor(L/2) + 1 of them; and CBCEK with Block (a << 8) | b, given
when PBV = 0, has the same effect as CBCEB a then CBCEB b. -/
def Obligations.EncryptionStreamLaw : Prop :=
  (∀ (s : State) (k iv : Word) (m : List Byte), ∃ t, runProgram (encryptProgram k iv m) s = .next t
    ∧ blocksCollected t.replies = cbcEncrypt s.cfg k iv m
    ∧ (blocksCollected t.replies).length = m.length / 2 + 1 ∧ t.err = 0 ∧ t.mode = modeIdle)
  ∧ (∀ (s : State) (a b : Byte), LegalState s → s.mode = modeEnc → s.pbv = 0 → ∃ t u,
      runProgram [.wr .din (joinBytes a b), .cmd .cbcek] s = .next t
      ∧ runProgram [.wr .din (zextByte a), .cmd .cbceb, .wr .din (zextByte b), .cmd .cbceb] s = .next u
      ∧ t = { u with cmd := t.cmd, din := t.din })

/-- R206: running CBCDI, CBCDB with every Block but the last, then CBCDL with the last, the bytes produced are the
unpad of the CBC decryption, whenever its last Block is accepted; otherwise the result is PADDING. -/
def Obligations.DecryptionStreamLaw : Prop :=
  ∀ (s : State) (k iv : Word) (front : List Word) (last : Word),
    ∃ t, runProgram (decryptProgram k iv front last) s = .next t ∧ t.mode = modeIdle
      ∧ (∀ m, cbcDecrypt s.cfg k iv (front ++ [last]) = some m → bytesCollected t.replies = m ∧ t.err = 0)
      ∧ (cbcDecrypt s.cfg k iv (front ++ [last]) = none → t.err = errBits .padding)

/-- R207: what the core decrypts from the Blocks it encrypted, with the same key and IV, is the byte string, and
ERR = OK; for byte strings of every length. -/
def Obligations.CbcRoundTrip : Prop :=
  ∀ (s : State) (k iv : Word) (m : List Byte), ∃ t, runProgram (encryptProgram k iv m) s = .next t
    ∧ ∃ front last, blocksCollected t.replies = front ++ [last]
    ∧ ∃ u, runProgram (decryptProgram k iv front last) t = .next u ∧ bytesCollected u.replies = m ∧ u.err = 0

/-- R208: under two different IVs the first Block differs, so the ciphertexts differ, for every plaintext and key. -/
def Obligations.IvSensitivity : Prop :=
  ∀ (c : Config) (k iv iv' : Word) (m : List Byte), iv ≠ iv' →
    (cbcEncrypt c k iv m).head? ≠ (cbcEncrypt c k iv' m).head? ∧ cbcEncrypt c k iv m ≠ cbcEncrypt c k iv' m

/-- R214, the error-propagation law: with block i of a ciphertext changed, the decrypted Blocks before i and from
i + 2 on are the same, Block i differs, and Block i + 1 differs in exactly the bits that were changed. -/
def Obligations.CbcErrorPropagation : Prop :=
  ∀ (c : Config) (k iv : Word) (xs : List Word) (i : Nat) (x x' : Word), xs[i]? = some x → x' ≠ x →
    let ps := cbcDecryptBlocks c k iv xs
    let ps' := cbcDecryptBlocks c k iv (xs.set i x')
    (∀ j, j < i → ps'[j]? = ps[j]?)
    ∧ ps'[i]? ≠ ps[i]?
    ∧ ps'[i + 1]? = ps[i + 1]?.map (fun p => p ^^^ x ^^^ x')
    ∧ (∀ j, i + 2 ≤ j → ps'[j]? = ps[j]?)

/-! ## What a command can and cannot see -/

/-- DOUT is never an operand: with another DOUT before a command write, every other register and the host side come out
the same, and DOUT itself comes out the same unless the command leaves it alone (rests on R265). -/
def Obligations.DoutNeverOperand : Prop :=
  ∀ (i : Instr) (s : State) (d : Word), ∃ t t', exec i s = .next t ∧ exec i { s with dout := d } = .next t'
    ∧ t' = { t with dout := t'.dout } ∧ (t'.dout = t.dout ∨ (t.dout = s.dout ∧ t'.dout = d))

/-- CBCKEY shows in no read of the port, and it is the only register that does not: two states whose sixteen reads
agree and whose CBCKEY agree have all registers equal (rests on R36, R244). -/
def Obligations.OnlyCbckeyHidden : Prop :=
  (∀ (s : State) (k : Word), visible { s with cbckey := k } = visible s)
  ∧ (∀ s t : State, visible s = visible t → s.cbckey = t.cbckey →
      t = { s with cfg := t.cfg, pending := t.pending, replies := t.replies })
end

