-- ==== Sys2Proof/Laws/Bits.lean ====
section
/-! SUPPORT. What the bit fields of Machine/Bits.lean give back of what was packed: the lemmas that later proofs cite
instead of unfolding a field. -/

namespace Sys2Proof.Machine

@[simp] theorem nib0_nib4 (a b c d : Nibble) : nib0 (nib4 a b c d) = a := by
  ext i hi
  have : i = 0 ∨ i = 1 ∨ i = 2 ∨ i = 3 := by omega
  rcases this with rfl | rfl | rfl | rfl <;> simp [nib0, nib4, zextNibble]

@[simp] theorem nib1_nib4 (a b c d : Nibble) : nib1 (nib4 a b c d) = b := by
  ext i hi
  have : i = 0 ∨ i = 1 ∨ i = 2 ∨ i = 3 := by omega
  rcases this with rfl | rfl | rfl | rfl <;> simp [nib1, nib4, zextNibble]

@[simp] theorem nib2_nib4 (a b c d : Nibble) : nib2 (nib4 a b c d) = c := by
  ext i hi
  have : i = 0 ∨ i = 1 ∨ i = 2 ∨ i = 3 := by omega
  rcases this with rfl | rfl | rfl | rfl <;> simp [nib2, nib4, zextNibble]

@[simp] theorem nib3_nib4 (a b c d : Nibble) : nib3 (nib4 a b c d) = d := by
  ext i hi
  have : i = 0 ∨ i = 1 ∨ i = 2 ∨ i = 3 := by omega
  rcases this with rfl | rfl | rfl | rfl <;> simp [nib3, nib4, zextNibble]

/-- A Block is its four nibbles (R13, R14). -/
@[simp] theorem nib4_nibs (b : Word) : nib4 (nib0 b) (nib1 b) (nib2 b) (nib3 b) = b := by
  ext i hi
  have : i ∈ List.range 16 := by simpa using hi
  fin_cases this <;> simp [nib0, nib1, nib2, nib3, nib4, zextNibble]

@[simp] theorem hiByte_joinBytes (a b : Byte) : hiByte (joinBytes a b) = a := by
  ext i hi
  have : i ∈ List.range 8 := by simpa using hi
  fin_cases this <;> simp [hiByte, joinBytes, zextByte]

@[simp] theorem loByte_joinBytes (a b : Byte) : loByte (joinBytes a b) = b := by
  ext i hi
  have : i ∈ List.range 8 := by simpa using hi
  fin_cases this <;> simp [loByte, joinBytes, zextByte]

/-- A Block is its two bytes (R54). -/
@[simp] theorem joinBytes_bytes (b : Word) : joinBytes (hiByte b) (loByte b) = b := by
  ext i hi
  have : i ∈ List.range 16 := by simpa using hi
  fin_cases this <;> simp [hiByte, loByte, joinBytes, zextByte]

@[simp] theorem hiNibble_joinNibbles (a b : Nibble) : hiNibble (joinNibbles a b) = a := by
  ext i hi
  have : i = 0 ∨ i = 1 ∨ i = 2 ∨ i = 3 := by omega
  rcases this with rfl | rfl | rfl | rfl <;> simp [hiNibble, joinNibbles]

@[simp] theorem loNibble_joinNibbles (a b : Nibble) : loNibble (joinNibbles a b) = b := by
  ext i hi
  have : i = 0 ∨ i = 1 ∨ i = 2 ∨ i = 3 := by omega
  rcases this with rfl | rfl | rfl | rfl <;> simp [loNibble, joinNibbles]

/-- A byte is its two nibbles (R105). -/
@[simp] theorem joinNibbles_nibbles (b : Byte) : joinNibbles (hiNibble b) (loNibble b) = b := by
  ext i hi
  have : i ∈ List.range 8 := by simpa using hi
  fin_cases this <;> simp [hiNibble, loNibble, joinNibbles]

/-- The low byte of a zero-extended byte is the byte (R14, R75). -/
@[simp] theorem loByte_zextByte (b : Byte) : loByte (zextByte b) = b := by
  ext i hi
  have : i ∈ List.range 8 := by simpa using hi
  fin_cases this <;> simp [loByte, zextByte]

end Sys2Proof.Machine
end

