-- ==== Sys2Proof/Laws/Exec.lean ====
section
/-! SUPPORT. What exec of each command is, as one equation over the shared operations: later proofs rewrite with these
and never unfold the dispatch. -/

namespace Sys2Proof.Machine

@[simp] theorem exec_nop (s : State) : exec .nop s = .next (complete s) := rfl

@[simp] theorem exec_gfmul (s : State) :
    exec .gfmul s = .next (writeResult (zextNibble (multiply (dinFactorA s) (dinFactorB s))) s) :=
  rfl

@[simp] theorem exec_subnib (s : State) :
    exec .subnib s = .next (writeResult (zextNibble (substituteNibble s.cfg.sbox (dinNibble s) false)) s) :=
  rfl

@[simp] theorem exec_subnibI (s : State) :
    exec .subnibI s = .next (writeResult (zextNibble (substituteNibble s.cfg.sbox (dinNibble s) true)) s) :=
  rfl

@[simp] theorem exec_subbyte (s : State) :
    exec .subbyte s = .next (writeResult (zextByte (substituteByte s.cfg.sbox (dinByte s) false)) s) :=
  rfl

@[simp] theorem exec_subbyteI (s : State) :
    exec .subbyteI s = .next (writeResult (zextByte (substituteByte s.cfg.sbox (dinByte s) true)) s) :=
  rfl

@[simp] theorem exec_rotnib (s : State) : exec .rotnib s = .next (writeResult (zextByte (rotateNibbles (dinByte s))) s) := rfl

@[simp] theorem exec_subnibs (s : State) :
    exec .subnibs s = .next (writeResult (substituteNibbles s.cfg.sbox s.din false) s) :=
  rfl

@[simp] theorem exec_subnibsI (s : State) :
    exec .subnibsI s = .next (writeResult (substituteNibbles s.cfg.sbox s.din true) s) :=
  rfl

@[simp] theorem exec_shiftrows (s : State) : exec .shiftrows s = .next (writeResult (shiftRows s.cfg.layout s.din) s) := rfl

@[simp] theorem exec_mixcol (s : State) : exec .mixcol s = .next (writeResult (mixColumns s.cfg.layout s.din false) s) := rfl

@[simp] theorem exec_mixcolI (s : State) : exec .mixcolI s = .next (writeResult (mixColumns s.cfg.layout s.din true) s) := rfl

@[simp] theorem exec_addkey (s : State) :
    exec .addkey s = .next (withKeys 1 (fun s => writeResult (s.din ^^^ s.key1) s) s) :=
  rfl

@[simp] theorem exec_keyexp0 (s : State) :
    exec .keyexp0 s = .next (withKeys 1 (fun s => writeResult (expand s.cfg.sbox s.key1).rk0 s) s) :=
  rfl

@[simp] theorem exec_keyexp1 (s : State) :
    exec .keyexp1 s = .next (withKeys 1 (fun s => writeResult (expand s.cfg.sbox s.key1).rk1 s) s) :=
  rfl

@[simp] theorem exec_keyexp2 (s : State) :
    exec .keyexp2 s = .next (withKeys 1 (fun s => writeResult (expand s.cfg.sbox s.key1).rk2 s) s) :=
  rfl

@[simp] theorem exec_enc (s : State) :
    exec .enc s = .next (withKeys 1 (fun s => writeResult (encrypt s.cfg s.din s.key1) s) s) :=
  rfl

@[simp] theorem exec_dec (s : State) :
    exec .dec s = .next (withKeys 1 (fun s => writeResult (decrypt s.cfg s.din s.key1) s) s) :=
  rfl

@[simp] theorem exec_denc (s : State) :
    exec .denc s = .next (withKeys 2 (fun s => writeResult (doubleEncrypt s.cfg s.din s.key1 s.key2) s) s) :=
  rfl

@[simp] theorem exec_ddec (s : State) :
    exec .ddec s = .next (withKeys 2 (fun s => writeResult (doubleDecrypt s.cfg s.din s.key1 s.key2) s) s) :=
  rfl

@[simp] theorem exec_edeenc (s : State) :
    exec .edeenc s = .next (withKeys 2 (fun s => writeResult (edeEncrypt s.cfg s.din s.key1 s.key2) s) s) :=
  rfl

@[simp] theorem exec_ededec (s : State) :
    exec .ededec s = .next (withKeys 2 (fun s => writeResult (edeDecrypt s.cfg s.din s.key1 s.key2) s) s) :=
  rfl

@[simp] theorem exec_eeeenc (s : State) :
    exec .eeeenc s = .next (withKeys 3 (fun s => writeResult (eeeEncrypt s.cfg s.din s.key1 s.key2 s.key3) s) s) :=
  rfl

@[simp] theorem exec_eeedec (s : State) :
    exec .eeedec s = .next (withKeys 3 (fun s => writeResult (eeeDecrypt s.cfg s.din s.key1 s.key2 s.key3) s) s) :=
  rfl

@[simp] theorem exec_cbcei (s : State) : exec .cbcei s = .next (withKeys 1 (openStream modeEnc) s) := rfl

@[simp] theorem exec_cbceb (s : State) : exec .cbceb s = .next (inMode modeEnc takeByte s) := rfl

@[simp] theorem exec_cbcek (s : State) : exec .cbcek s = .next (inMode modeEnc takeBlock s) := rfl

@[simp] theorem exec_cbcef (s : State) :
    exec .cbcef s = .next (inMode modeEnc (fun s => closeStream (dropByte (emitBlock (chainEncrypt (lastBlock s) s) s))) s) :=
  rfl

@[simp] theorem exec_cbcdi (s : State) : exec .cbcdi s = .next (withKeys 1 (openStream modeDec) s) := rfl

@[simp] theorem exec_cbcdb (s : State) :
    exec .cbcdb s = .next (inMode modeDec (fun s => writeResult (chainDecrypt s) (takeChain s)) s) :=
  rfl

@[simp] theorem exec_cbcdl (s : State) :
    exec .cbcdl s = .next (inMode modeDec (fun s => unpadResult (chainDecrypt s) (closeStream (takeChain s))) s) :=
  rfl

end Sys2Proof.Machine
end

