-- ==== Sys2Proof/Laws/State.lean ====
section
/-! SUPPORT. What each field is after each named update: one lemma per field per update, true by rfl, so that no later
proof unfolds a record update. -/

namespace Sys2Proof.Machine

@[simp] theorem raise_cmd (e : ErrCode) (s : State) : (raise e s).cmd = s.cmd := rfl
@[simp] theorem raise_din (e : ErrCode) (s : State) : (raise e s).din = s.din := rfl
@[simp] theorem raise_dout (e : ErrCode) (s : State) : (raise e s).dout = s.dout := rfl
@[simp] theorem raise_key1 (e : ErrCode) (s : State) : (raise e s).key1 = s.key1 := rfl
@[simp] theorem raise_key2 (e : ErrCode) (s : State) : (raise e s).key2 = s.key2 := rfl
@[simp] theorem raise_key3 (e : ErrCode) (s : State) : (raise e s).key3 = s.key3 := rfl
@[simp] theorem raise_keylen (e : ErrCode) (s : State) : (raise e s).keylen = s.keylen := rfl
@[simp] theorem raise_iv (e : ErrCode) (s : State) : (raise e s).iv = s.iv := rfl
@[simp] theorem raise_chain (e : ErrCode) (s : State) : (raise e s).chain = s.chain := rfl
@[simp] theorem raise_pbuf (e : ErrCode) (s : State) : (raise e s).pbuf = s.pbuf := rfl
@[simp] theorem raise_cbckey (e : ErrCode) (s : State) : (raise e s).cbckey = s.cbckey := rfl
@[simp] theorem raise_err (e : ErrCode) (s : State) : (raise e s).err = errBits e := rfl
@[simp] theorem raise_outn (e : ErrCode) (s : State) : (raise e s).outn = 0 := rfl
@[simp] theorem raise_mode (e : ErrCode) (s : State) : (raise e s).mode = s.mode := rfl
@[simp] theorem raise_pbv (e : ErrCode) (s : State) : (raise e s).pbv = s.pbv := rfl
@[simp] theorem raise_cfg (e : ErrCode) (s : State) : (raise e s).cfg = s.cfg := rfl
@[simp] theorem raise_pending (e : ErrCode) (s : State) : (raise e s).pending = s.pending := rfl
@[simp] theorem raise_replies (e : ErrCode) (s : State) : (raise e s).replies = s.replies := rfl

@[simp] theorem complete_cmd (s : State) : (complete s).cmd = s.cmd := rfl
@[simp] theorem complete_din (s : State) : (complete s).din = s.din := rfl
@[simp] theorem complete_dout (s : State) : (complete s).dout = s.dout := rfl
@[simp] theorem complete_key1 (s : State) : (complete s).key1 = s.key1 := rfl
@[simp] theorem complete_key2 (s : State) : (complete s).key2 = s.key2 := rfl
@[simp] theorem complete_key3 (s : State) : (complete s).key3 = s.key3 := rfl
@[simp] theorem complete_keylen (s : State) : (complete s).keylen = s.keylen := rfl
@[simp] theorem complete_iv (s : State) : (complete s).iv = s.iv := rfl
@[simp] theorem complete_chain (s : State) : (complete s).chain = s.chain := rfl
@[simp] theorem complete_pbuf (s : State) : (complete s).pbuf = s.pbuf := rfl
@[simp] theorem complete_cbckey (s : State) : (complete s).cbckey = s.cbckey := rfl
@[simp] theorem complete_err (s : State) : (complete s).err = errBits .ok := rfl
@[simp] theorem complete_outn (s : State) : (complete s).outn = s.outn := rfl
@[simp] theorem complete_mode (s : State) : (complete s).mode = s.mode := rfl
@[simp] theorem complete_pbv (s : State) : (complete s).pbv = s.pbv := rfl
@[simp] theorem complete_cfg (s : State) : (complete s).cfg = s.cfg := rfl
@[simp] theorem complete_pending (s : State) : (complete s).pending = s.pending := rfl
@[simp] theorem complete_replies (s : State) : (complete s).replies = s.replies := rfl

@[simp] theorem writeResult_cmd (v : Word) (s : State) : (writeResult v s).cmd = s.cmd := rfl
@[simp] theorem writeResult_din (v : Word) (s : State) : (writeResult v s).din = s.din := rfl
@[simp] theorem writeResult_dout (v : Word) (s : State) : (writeResult v s).dout = v := rfl
@[simp] theorem writeResult_key1 (v : Word) (s : State) : (writeResult v s).key1 = s.key1 := rfl
@[simp] theorem writeResult_key2 (v : Word) (s : State) : (writeResult v s).key2 = s.key2 := rfl
@[simp] theorem writeResult_key3 (v : Word) (s : State) : (writeResult v s).key3 = s.key3 := rfl
@[simp] theorem writeResult_keylen (v : Word) (s : State) : (writeResult v s).keylen = s.keylen := rfl
@[simp] theorem writeResult_iv (v : Word) (s : State) : (writeResult v s).iv = s.iv := rfl
@[simp] theorem writeResult_chain (v : Word) (s : State) : (writeResult v s).chain = s.chain := rfl
@[simp] theorem writeResult_pbuf (v : Word) (s : State) : (writeResult v s).pbuf = s.pbuf := rfl
@[simp] theorem writeResult_cbckey (v : Word) (s : State) : (writeResult v s).cbckey = s.cbckey := rfl
@[simp] theorem writeResult_err (v : Word) (s : State) : (writeResult v s).err = errBits .ok := rfl
@[simp] theorem writeResult_outn (v : Word) (s : State) : (writeResult v s).outn = 2 := rfl
@[simp] theorem writeResult_mode (v : Word) (s : State) : (writeResult v s).mode = s.mode := rfl
@[simp] theorem writeResult_pbv (v : Word) (s : State) : (writeResult v s).pbv = s.pbv := rfl
@[simp] theorem writeResult_cfg (v : Word) (s : State) : (writeResult v s).cfg = s.cfg := rfl
@[simp] theorem writeResult_pending (v : Word) (s : State) : (writeResult v s).pending = s.pending := rfl
@[simp] theorem writeResult_replies (v : Word) (s : State) : (writeResult v s).replies = s.replies := rfl

@[simp] theorem openStream_cmd (m : BitVec 2) (s : State) : (openStream m s).cmd = s.cmd := rfl
@[simp] theorem openStream_din (m : BitVec 2) (s : State) : (openStream m s).din = s.din := rfl
@[simp] theorem openStream_dout (m : BitVec 2) (s : State) : (openStream m s).dout = s.dout := rfl
@[simp] theorem openStream_key1 (m : BitVec 2) (s : State) : (openStream m s).key1 = s.key1 := rfl
@[simp] theorem openStream_key2 (m : BitVec 2) (s : State) : (openStream m s).key2 = s.key2 := rfl
@[simp] theorem openStream_key3 (m : BitVec 2) (s : State) : (openStream m s).key3 = s.key3 := rfl
@[simp] theorem openStream_keylen (m : BitVec 2) (s : State) : (openStream m s).keylen = s.keylen := rfl
@[simp] theorem openStream_iv (m : BitVec 2) (s : State) : (openStream m s).iv = s.iv := rfl
@[simp] theorem openStream_chain (m : BitVec 2) (s : State) : (openStream m s).chain = s.iv := rfl
@[simp] theorem openStream_pbuf (m : BitVec 2) (s : State) : (openStream m s).pbuf = 0 := rfl
@[simp] theorem openStream_cbckey (m : BitVec 2) (s : State) : (openStream m s).cbckey = s.key1 := rfl
@[simp] theorem openStream_err (m : BitVec 2) (s : State) : (openStream m s).err = errBits .ok := rfl
@[simp] theorem openStream_outn (m : BitVec 2) (s : State) : (openStream m s).outn = 0 := rfl
@[simp] theorem openStream_mode (m : BitVec 2) (s : State) : (openStream m s).mode = m := rfl
@[simp] theorem openStream_pbv (m : BitVec 2) (s : State) : (openStream m s).pbv = 0 := rfl
@[simp] theorem openStream_cfg (m : BitVec 2) (s : State) : (openStream m s).cfg = s.cfg := rfl
@[simp] theorem openStream_pending (m : BitVec 2) (s : State) : (openStream m s).pending = s.pending := rfl
@[simp] theorem openStream_replies (m : BitVec 2) (s : State) : (openStream m s).replies = s.replies := rfl

@[simp] theorem holdByte_cmd (b : Byte) (s : State) : (holdByte b s).cmd = s.cmd := rfl
@[simp] theorem holdByte_din (b : Byte) (s : State) : (holdByte b s).din = s.din := rfl
@[simp] theorem holdByte_dout (b : Byte) (s : State) : (holdByte b s).dout = s.dout := rfl
@[simp] theorem holdByte_key1 (b : Byte) (s : State) : (holdByte b s).key1 = s.key1 := rfl
@[simp] theorem holdByte_key2 (b : Byte) (s : State) : (holdByte b s).key2 = s.key2 := rfl
@[simp] theorem holdByte_key3 (b : Byte) (s : State) : (holdByte b s).key3 = s.key3 := rfl
@[simp] theorem holdByte_keylen (b : Byte) (s : State) : (holdByte b s).keylen = s.keylen := rfl
@[simp] theorem holdByte_iv (b : Byte) (s : State) : (holdByte b s).iv = s.iv := rfl
@[simp] theorem holdByte_chain (b : Byte) (s : State) : (holdByte b s).chain = s.chain := rfl
@[simp] theorem holdByte_pbuf (b : Byte) (s : State) : (holdByte b s).pbuf = b := rfl
@[simp] theorem holdByte_cbckey (b : Byte) (s : State) : (holdByte b s).cbckey = s.cbckey := rfl
@[simp] theorem holdByte_err (b : Byte) (s : State) : (holdByte b s).err = errBits .ok := rfl
@[simp] theorem holdByte_outn (b : Byte) (s : State) : (holdByte b s).outn = 0 := rfl
@[simp] theorem holdByte_mode (b : Byte) (s : State) : (holdByte b s).mode = s.mode := rfl
@[simp] theorem holdByte_pbv (b : Byte) (s : State) : (holdByte b s).pbv = 1 := rfl
@[simp] theorem holdByte_cfg (b : Byte) (s : State) : (holdByte b s).cfg = s.cfg := rfl
@[simp] theorem holdByte_pending (b : Byte) (s : State) : (holdByte b s).pending = s.pending := rfl
@[simp] theorem holdByte_replies (b : Byte) (s : State) : (holdByte b s).replies = s.replies := rfl

@[simp] theorem dropByte_cmd (s : State) : (dropByte s).cmd = s.cmd := rfl
@[simp] theorem dropByte_din (s : State) : (dropByte s).din = s.din := rfl
@[simp] theorem dropByte_dout (s : State) : (dropByte s).dout = s.dout := rfl
@[simp] theorem dropByte_key1 (s : State) : (dropByte s).key1 = s.key1 := rfl
@[simp] theorem dropByte_key2 (s : State) : (dropByte s).key2 = s.key2 := rfl
@[simp] theorem dropByte_key3 (s : State) : (dropByte s).key3 = s.key3 := rfl
@[simp] theorem dropByte_keylen (s : State) : (dropByte s).keylen = s.keylen := rfl
@[simp] theorem dropByte_iv (s : State) : (dropByte s).iv = s.iv := rfl
@[simp] theorem dropByte_chain (s : State) : (dropByte s).chain = s.chain := rfl
@[simp] theorem dropByte_pbuf (s : State) : (dropByte s).pbuf = 0 := rfl
@[simp] theorem dropByte_cbckey (s : State) : (dropByte s).cbckey = s.cbckey := rfl
@[simp] theorem dropByte_err (s : State) : (dropByte s).err = s.err := rfl
@[simp] theorem dropByte_outn (s : State) : (dropByte s).outn = s.outn := rfl
@[simp] theorem dropByte_mode (s : State) : (dropByte s).mode = s.mode := rfl
@[simp] theorem dropByte_pbv (s : State) : (dropByte s).pbv = 0 := rfl
@[simp] theorem dropByte_cfg (s : State) : (dropByte s).cfg = s.cfg := rfl
@[simp] theorem dropByte_pending (s : State) : (dropByte s).pending = s.pending := rfl
@[simp] theorem dropByte_replies (s : State) : (dropByte s).replies = s.replies := rfl

@[simp] theorem emitBlock_cmd (c : Word) (s : State) : (emitBlock c s).cmd = s.cmd := rfl
@[simp] theorem emitBlock_din (c : Word) (s : State) : (emitBlock c s).din = s.din := rfl
@[simp] theorem emitBlock_dout (c : Word) (s : State) : (emitBlock c s).dout = c := rfl
@[simp] theorem emitBlock_key1 (c : Word) (s : State) : (emitBlock c s).key1 = s.key1 := rfl
@[simp] theorem emitBlock_key2 (c : Word) (s : State) : (emitBlock c s).key2 = s.key2 := rfl
@[simp] theorem emitBlock_key3 (c : Word) (s : State) : (emitBlock c s).key3 = s.key3 := rfl
@[simp] theorem emitBlock_keylen (c : Word) (s : State) : (emitBlock c s).keylen = s.keylen := rfl
@[simp] theorem emitBlock_iv (c : Word) (s : State) : (emitBlock c s).iv = s.iv := rfl
@[simp] theorem emitBlock_chain (c : Word) (s : State) : (emitBlock c s).chain = c := rfl
@[simp] theorem emitBlock_pbuf (c : Word) (s : State) : (emitBlock c s).pbuf = s.pbuf := rfl
@[simp] theorem emitBlock_cbckey (c : Word) (s : State) : (emitBlock c s).cbckey = s.cbckey := rfl
@[simp] theorem emitBlock_err (c : Word) (s : State) : (emitBlock c s).err = errBits .ok := rfl
@[simp] theorem emitBlock_outn (c : Word) (s : State) : (emitBlock c s).outn = 2 := rfl
@[simp] theorem emitBlock_mode (c : Word) (s : State) : (emitBlock c s).mode = s.mode := rfl
@[simp] theorem emitBlock_pbv (c : Word) (s : State) : (emitBlock c s).pbv = s.pbv := rfl
@[simp] theorem emitBlock_cfg (c : Word) (s : State) : (emitBlock c s).cfg = s.cfg := rfl
@[simp] theorem emitBlock_pending (c : Word) (s : State) : (emitBlock c s).pending = s.pending := rfl
@[simp] theorem emitBlock_replies (c : Word) (s : State) : (emitBlock c s).replies = s.replies := rfl

@[simp] theorem takeChain_cmd (s : State) : (takeChain s).cmd = s.cmd := rfl
@[simp] theorem takeChain_din (s : State) : (takeChain s).din = s.din := rfl
@[simp] theorem takeChain_dout (s : State) : (takeChain s).dout = s.dout := rfl
@[simp] theorem takeChain_key1 (s : State) : (takeChain s).key1 = s.key1 := rfl
@[simp] theorem takeChain_key2 (s : State) : (takeChain s).key2 = s.key2 := rfl
@[simp] theorem takeChain_key3 (s : State) : (takeChain s).key3 = s.key3 := rfl
@[simp] theorem takeChain_keylen (s : State) : (takeChain s).keylen = s.keylen := rfl
@[simp] theorem takeChain_iv (s : State) : (takeChain s).iv = s.iv := rfl
@[simp] theorem takeChain_chain (s : State) : (takeChain s).chain = s.din := rfl
@[simp] theorem takeChain_pbuf (s : State) : (takeChain s).pbuf = s.pbuf := rfl
@[simp] theorem takeChain_cbckey (s : State) : (takeChain s).cbckey = s.cbckey := rfl
@[simp] theorem takeChain_err (s : State) : (takeChain s).err = s.err := rfl
@[simp] theorem takeChain_outn (s : State) : (takeChain s).outn = s.outn := rfl
@[simp] theorem takeChain_mode (s : State) : (takeChain s).mode = s.mode := rfl
@[simp] theorem takeChain_pbv (s : State) : (takeChain s).pbv = s.pbv := rfl
@[simp] theorem takeChain_cfg (s : State) : (takeChain s).cfg = s.cfg := rfl
@[simp] theorem takeChain_pending (s : State) : (takeChain s).pending = s.pending := rfl
@[simp] theorem takeChain_replies (s : State) : (takeChain s).replies = s.replies := rfl

@[simp] theorem closeStream_cmd (s : State) : (closeStream s).cmd = s.cmd := rfl
@[simp] theorem closeStream_din (s : State) : (closeStream s).din = s.din := rfl
@[simp] theorem closeStream_dout (s : State) : (closeStream s).dout = s.dout := rfl
@[simp] theorem closeStream_key1 (s : State) : (closeStream s).key1 = s.key1 := rfl
@[simp] theorem closeStream_key2 (s : State) : (closeStream s).key2 = s.key2 := rfl
@[simp] theorem closeStream_key3 (s : State) : (closeStream s).key3 = s.key3 := rfl
@[simp] theorem closeStream_keylen (s : State) : (closeStream s).keylen = s.keylen := rfl
@[simp] theorem closeStream_iv (s : State) : (closeStream s).iv = s.iv := rfl
@[simp] theorem closeStream_chain (s : State) : (closeStream s).chain = s.chain := rfl
@[simp] theorem closeStream_pbuf (s : State) : (closeStream s).pbuf = s.pbuf := rfl
@[simp] theorem closeStream_cbckey (s : State) : (closeStream s).cbckey = s.cbckey := rfl
@[simp] theorem closeStream_err (s : State) : (closeStream s).err = s.err := rfl
@[simp] theorem closeStream_outn (s : State) : (closeStream s).outn = s.outn := rfl
@[simp] theorem closeStream_mode (s : State) : (closeStream s).mode = modeIdle := rfl
@[simp] theorem closeStream_pbv (s : State) : (closeStream s).pbv = s.pbv := rfl
@[simp] theorem closeStream_cfg (s : State) : (closeStream s).cfg = s.cfg := rfl
@[simp] theorem closeStream_pending (s : State) : (closeStream s).pending = s.pending := rfl
@[simp] theorem closeStream_replies (s : State) : (closeStream s).replies = s.replies := rfl

@[simp] theorem busReadReply_cmd (a : BitVec 4) (s : State) : (busReadReply a s).cmd = s.cmd := rfl
@[simp] theorem busReadReply_din (a : BitVec 4) (s : State) : (busReadReply a s).din = s.din := rfl
@[simp] theorem busReadReply_dout (a : BitVec 4) (s : State) : (busReadReply a s).dout = s.dout := rfl
@[simp] theorem busReadReply_key1 (a : BitVec 4) (s : State) : (busReadReply a s).key1 = s.key1 := rfl
@[simp] theorem busReadReply_key2 (a : BitVec 4) (s : State) : (busReadReply a s).key2 = s.key2 := rfl
@[simp] theorem busReadReply_key3 (a : BitVec 4) (s : State) : (busReadReply a s).key3 = s.key3 := rfl
@[simp] theorem busReadReply_keylen (a : BitVec 4) (s : State) : (busReadReply a s).keylen = s.keylen := rfl
@[simp] theorem busReadReply_iv (a : BitVec 4) (s : State) : (busReadReply a s).iv = s.iv := rfl
@[simp] theorem busReadReply_chain (a : BitVec 4) (s : State) : (busReadReply a s).chain = s.chain := rfl
@[simp] theorem busReadReply_pbuf (a : BitVec 4) (s : State) : (busReadReply a s).pbuf = s.pbuf := rfl
@[simp] theorem busReadReply_cbckey (a : BitVec 4) (s : State) : (busReadReply a s).cbckey = s.cbckey := rfl
@[simp] theorem busReadReply_err (a : BitVec 4) (s : State) : (busReadReply a s).err = s.err := rfl
@[simp] theorem busReadReply_outn (a : BitVec 4) (s : State) : (busReadReply a s).outn = s.outn := rfl
@[simp] theorem busReadReply_mode (a : BitVec 4) (s : State) : (busReadReply a s).mode = s.mode := rfl
@[simp] theorem busReadReply_pbv (a : BitVec 4) (s : State) : (busReadReply a s).pbv = s.pbv := rfl
@[simp] theorem busReadReply_cfg (a : BitVec 4) (s : State) : (busReadReply a s).cfg = s.cfg := rfl
@[simp] theorem busReadReply_pending (a : BitVec 4) (s : State) : (busReadReply a s).pending = s.pending := rfl
@[simp] theorem busReadReply_replies (a : BitVec 4) (s : State) : (busReadReply a s).replies = s.replies ++ [readReg s (portReg a)] := rfl

@[simp] theorem coreReset_cmd (s : State) : (coreReset s).cmd = 0 := rfl
@[simp] theorem coreReset_din (s : State) : (coreReset s).din = 0 := rfl
@[simp] theorem coreReset_dout (s : State) : (coreReset s).dout = 0 := rfl
@[simp] theorem coreReset_key1 (s : State) : (coreReset s).key1 = 0 := rfl
@[simp] theorem coreReset_key2 (s : State) : (coreReset s).key2 = 0 := rfl
@[simp] theorem coreReset_key3 (s : State) : (coreReset s).key3 = 0 := rfl
@[simp] theorem coreReset_keylen (s : State) : (coreReset s).keylen = 0 := rfl
@[simp] theorem coreReset_iv (s : State) : (coreReset s).iv = 0 := rfl
@[simp] theorem coreReset_chain (s : State) : (coreReset s).chain = 0 := rfl
@[simp] theorem coreReset_pbuf (s : State) : (coreReset s).pbuf = 0 := rfl
@[simp] theorem coreReset_cbckey (s : State) : (coreReset s).cbckey = 0 := rfl
@[simp] theorem coreReset_err (s : State) : (coreReset s).err = 0 := rfl
@[simp] theorem coreReset_outn (s : State) : (coreReset s).outn = 0 := rfl
@[simp] theorem coreReset_mode (s : State) : (coreReset s).mode = 0 := rfl
@[simp] theorem coreReset_pbv (s : State) : (coreReset s).pbv = 0 := rfl
@[simp] theorem coreReset_cfg (s : State) : (coreReset s).cfg = s.cfg := rfl
@[simp] theorem coreReset_pending (s : State) : (coreReset s).pending = s.pending := rfl
@[simp] theorem coreReset_replies (s : State) : (coreReset s).replies = s.replies := rfl

end Sys2Proof.Machine
end

