-- ==== Sys2Proof/Laws/Ops.lean ====
section
/-! SUPPORT. Everything each shared operation can do, said once: the checks, the outcomes of the sequencer's operations,
the register port, and the step. Later proofs cite these instead of unfolding an operation. -/

namespace Sys2Proof.Machine

/-- With the number of keys it needs, a command runs (R232). -/
theorem withKeys_of_eq {n : BitVec 3} {s : State} (h : s.keylen = n) (f : State → State) :
    withKeys n f s = f s := if_pos h

/-- With another number, it raises KEY_LENGTH (R232). -/
theorem withKeys_of_ne {n : BitVec 3} {s : State} (h : s.keylen ≠ n) (f : State → State) :
    withKeys n f s = raise .keyLength s := if_neg h

/-- The two outcomes of the key-length check. -/
theorem withKeys_cases (n : BitVec 3) (f : State → State) (s : State) :
    (s.keylen = n ∧ withKeys n f s = f s) ∨ (s.keylen ≠ n ∧ withKeys n f s = raise .keyLength s) := by
  by_cases h : s.keylen = n
  · exact .inl ⟨h, withKeys_of_eq h f⟩
  · exact .inr ⟨h, withKeys_of_ne h f⟩

/-- In its own MODE, a stream command runs (R196). -/
theorem inMode_of_eq {m : BitVec 2} {s : State} (h : s.mode = m) (f : State → State) : inMode m f s = f s := if_pos h

/-- In another MODE, it raises SEQUENCE (R196). -/
theorem inMode_of_ne {m : BitVec 2} {s : State} (h : s.mode ≠ m) (f : State → State) :
    inMode m f s = raise .sequence s := if_neg h

/-- The two outcomes of the sequence check. -/
theorem inMode_cases (m : BitVec 2) (f : State → State) (s : State) :
    (s.mode = m ∧ inMode m f s = f s) ∨ (s.mode ≠ m ∧ inMode m f s = raise .sequence s) := by
  by_cases h : s.mode = m
  · exact .inl ⟨h, inMode_of_eq h f⟩
  · exact .inr ⟨h, inMode_of_ne h f⟩

/-- One bit that is not 0 is 1. -/
theorem bit_eq_one {b : BitVec 1} (h : b ≠ 0) : b = 1 := by
  revert h; revert b; decide

/-- The two outcomes of CBCEB in an encryption stream (R201). -/
theorem takeByte_cases (s : State) :
    (s.pbv = 0 ∧ takeByte s = holdByte (dinByte s) s)
      ∨ (s.pbv = 1 ∧ takeByte s = dropByte (emitBlock (chainEncrypt (joinBytes s.pbuf (dinByte s)) s) s)) := by
  by_cases h : s.pbv = 0
  · exact .inl ⟨h, if_pos h⟩
  · exact .inr ⟨bit_eq_one h, if_neg h⟩

/-- The two outcomes of CBCEK in an encryption stream (R202). -/
theorem takeBlock_cases (s : State) :
    (s.pbv = 1 ∧ takeBlock s = raise .sequence s)
      ∨ (s.pbv ≠ 1 ∧ takeBlock s = emitBlock (chainEncrypt s.din s) s) := by
  by_cases h : s.pbv = 1
  · exact .inl ⟨h, if_pos h⟩
  · exact .inr ⟨h, if_neg h⟩

/-- The three outcomes of CBCDL for the decrypted last Block p (R211, R212). -/
theorem unpadResult_cases (p : Word) (s : State) :
    (loByte p = 0x01 ∧ unpadResult p s = { s with dout := p &&& 0xFF00, outn := 1, err := errBits .ok })
      ∨ (loByte p ≠ 0x01 ∧ p = 0x0202 ∧ unpadResult p s = { s with dout := 0, outn := 0, err := errBits .ok })
      ∨ (loByte p ≠ 0x01 ∧ p ≠ 0x0202 ∧ unpadResult p s = raise .padding { s with dout := 0 }) := by
  by_cases h : loByte p = 0x01
  · exact .inl ⟨h, if_pos h⟩
  · by_cases h' : p = 0x0202
    · exact .inr (.inl ⟨h, h', (if_neg h).trans (if_pos h')⟩)
    · exact .inr (.inr ⟨h, h', (if_neg h).trans (if_neg h')⟩)

/-- Each register's index decodes to the register (R51). -/
@[simp] theorem portReg_portIndex (r : PortReg) : portReg (portIndex r) = r := by
  cases r with
  | reserved j => fin_cases j <;> rfl
  | _ => rfl

/-- Each index is that of the register it decodes to: all sixteen are decoded (R51). -/
@[simp] theorem portIndex_portReg (a : BitVec 4) : portIndex (portReg a) = a := by
  revert a; decide

/-- CMD is index 0 and no other (R22). -/
theorem portReg_eq_cmd_iff (a : BitVec 4) : portReg a = .cmd ↔ a = 0 := by
  revert a; decide

/-- A write leaves what every other register but its own reads as (R22, R58). -/
theorem readReg_storeReg_of_ne {r q : PortReg} (h : q ≠ r) (v : Word) (s : State) :
    readReg (storeReg r v s) q = readReg s q := by
  cases r <;> cases q <;> first | rfl | exact absurd rfl h

/-- A read after a write of CMD, DIN, a key or IV returns the value written (R58). -/
theorem readReg_storeReg {r : PortReg} (h : r ∈ [PortReg.cmd, .din, .key1, .key2, .key3, .iv]) (v : Word) (s : State) :
    readReg (storeReg r v s) r = v := by
  simp only [List.mem_cons, List.not_mem_nil, or_false] at h
  rcases h with rfl | rfl | rfl | rfl | rfl | rfl <;> rfl

/-- Running the decoded command, or ILLEGAL_CMD (R57, R70). -/
theorem runCommand_cases (v : Word) (s : State) :
    (∃ i, decode v = .ok i ∧ runCommand v s = exec i s)
      ∨ (∃ why, decode v = .error why ∧ runCommand v s = .next (raise .illegalCmd s)) := by
  unfold runCommand
  cases h : decode v with
  | ok i => exact .inl ⟨i, rfl, rfl⟩
  | error why => exact .inr ⟨why, rfl, rfl⟩

/-- A write to CMD stores the word and runs it (R57). -/
theorem busWrite_cmd (v : Word) (s : State) : busWrite 0 v s = runCommand v { s with cmd := v } := rfl

/-- A write to another register only stores (R58). -/
theorem busWrite_of_ne_zero {a : BitVec 4} (h : a ≠ 0) (v : Word) (s : State) :
    busWrite a v s = .next (storeReg (portReg a) v s) := by
  have : portReg a ≠ .cmd := fun hc => h ((portReg_eq_cmd_iff a).1 hc)
  unfold busWrite
  cases hr : portReg a <;> first | rfl | exact absurd hr this

/-- A step with an event pending handles it and takes it off the pending ones. -/
theorem step_cons (s : State) (e : HostEvent) (rest : List HostEvent) :
    step { s with pending := e :: rest } = handleEvent e { s with pending := rest } := rfl

/-- The step of a write to CMD (R57). -/
theorem step_write_cmd (s : State) (v : Word) (rest : List HostEvent) :
    step { s with pending := .busWrite 0 v :: rest } = runCommand v { s with pending := rest, cmd := v } := rfl

/-- The step of a write to another register (R58). -/
theorem step_write_of_ne_zero {a : BitVec 4} (h : a ≠ 0) (s : State) (v : Word) (rest : List HostEvent) :
    step { s with pending := .busWrite a v :: rest } = .next (storeReg (portReg a) v { s with pending := rest }) :=
  busWrite_of_ne_zero h v _

/-- The step of a read (R58). -/
theorem step_read (s : State) (a : BitVec 4) (rest : List HostEvent) :
    step { s with pending := .busRead a :: rest }
      = .next { s with pending := rest, replies := s.replies ++ [readReg s (portReg a)] } := by
  have h : readReg { s with pending := rest } (portReg a) = readReg s (portReg a) := by
    cases portReg a <;> rfl
  exact congrArg (fun x => Host.Outcome.next { s with pending := rest, replies := s.replies ++ [x] }) h

/-- The step of a reset (R260). -/
theorem step_reset (s : State) (rest : List HostEvent) :
    step { s with pending := .reset :: rest }
      = .next { State.reset with cfg := s.cfg, pending := rest, replies := s.replies } := rfl

/-- A decoded command runs (R57). -/
theorem runCommand_of_ok {v : Word} {i : Instr} (h : decode v = .ok i) (s : State) :
    runCommand v s = exec i s := by
  unfold runCommand; simp only [h]

/-- An illegal word raises ILLEGAL_CMD (R231). -/
theorem runCommand_of_error {v : Word} {why : IllegalCmd} (h : decode v = .error why) (s : State) :
    runCommand v s = .next (raise .illegalCmd s) := by
  unfold runCommand; simp only [h]

end Sys2Proof.Machine
end

