-- ==== Sys2Proof/Laws/PerInstr.lean ====
section
/-! SUPPORT. Statements made per instruction, one lemma per constructor of Instr: the family WordWellFormed says that the
word the encoder writes for a command meets the five conditions of R76 (none of them holds of it). -/

namespace Sys2Proof.Laws.WordWellFormed

/-- The word of the command is a well-formed CMD16 word (R71, R76). -/
def Statement (i : Instr) : Prop := (splitCmd (encode i)).wellFormed = true

theorem nop : Statement .nop := by unfold Statement; decide
theorem gfmul : Statement .gfmul := by unfold Statement; decide
theorem subnib : Statement .subnib := by unfold Statement; decide
theorem subnibI : Statement .subnibI := by unfold Statement; decide
theorem subbyte : Statement .subbyte := by unfold Statement; decide
theorem subbyteI : Statement .subbyteI := by unfold Statement; decide
theorem rotnib : Statement .rotnib := by unfold Statement; decide
theorem subnibs : Statement .subnibs := by unfold Statement; decide
theorem subnibsI : Statement .subnibsI := by unfold Statement; decide
theorem shiftrows : Statement .shiftrows := by unfold Statement; decide
theorem mixcol : Statement .mixcol := by unfold Statement; decide
theorem mixcolI : Statement .mixcolI := by unfold Statement; decide
theorem addkey : Statement .addkey := by unfold Statement; decide
theorem keyexp0 : Statement .keyexp0 := by unfold Statement; decide
theorem keyexp1 : Statement .keyexp1 := by unfold Statement; decide
theorem keyexp2 : Statement .keyexp2 := by unfold Statement; decide
theorem enc : Statement .enc := by unfold Statement; decide
theorem dec : Statement .dec := by unfold Statement; decide
theorem denc : Statement .denc := by unfold Statement; decide
theorem ddec : Statement .ddec := by unfold Statement; decide
theorem edeenc : Statement .edeenc := by unfold Statement; decide
theorem ededec : Statement .ededec := by unfold Statement; decide
theorem eeeenc : Statement .eeeenc := by unfold Statement; decide
theorem eeedec : Statement .eeedec := by unfold Statement; decide
theorem cbcei : Statement .cbcei := by unfold Statement; decide
theorem cbceb : Statement .cbceb := by unfold Statement; decide
theorem cbcek : Statement .cbcek := by unfold Statement; decide
theorem cbcef : Statement .cbcef := by unfold Statement; decide
theorem cbcdi : Statement .cbcdi := by unfold Statement; decide
theorem cbcdb : Statement .cbcdb := by unfold Statement; decide
theorem cbcdl : Statement .cbcdl := by unfold Statement; decide

end Sys2Proof.Laws.WordWellFormed
end

