-- ==== Sys2Proof/Laws/Run.lean ====
section
/-! SUPPORT. Runs of many steps: `runSteps` is the host's `Core.run` of this machine, and what a run does follows from
its first step. -/

namespace Sys2Proof.Machine

/-- A run whose first step answers a next state goes on from that state. -/
theorem coreRun_of_next {M : Host.Core} {s t : M.State} (h : M.step s = .next t) (k : Nat) :
    M.run (k + 1) s = M.run k t := by
  rw [Host.Core.run, h]

/-- A run whose first step faults ends there. -/
theorem coreRun_of_fault {M : Host.Core} {s : M.State} {why : M.Fault} (h : M.step s = .fault why) (k : Nat) :
    M.run (k + 1) s = .fault why := by
  rw [Host.Core.run, h]

/-- A run whose first step is refused ends there. -/
theorem coreRun_of_refused {M : Host.Core} {s : M.State} {why : M.Refusal} (h : M.step s = .refused why)
    (k : Nat) : M.run (k + 1) s = .refused why := by
  rw [Host.Core.run, h]

/-- `runSteps` is the host's run of the core. -/
theorem runSteps_eq_run (k : Nat) (s : State) : runSteps k s = Host.Core.run Sys2Proof.core k s := by
  induction k generalizing s with
  | zero => rw [runSteps]; exact (Host.Core.run.eq_1 Sys2Proof.core s).symm
  | succ k ih =>
    rw [runSteps]
    cases h : step s with
    | next t => exact (ih t).trans (coreRun_of_next (M := Sys2Proof.core) h k).symm
    | fault why => exact (coreRun_of_fault (M := Sys2Proof.core) h k).symm
    | refused why => exact (coreRun_of_refused (M := Sys2Proof.core) h k).symm

@[simp] theorem runSteps_zero (s : State) : runSteps 0 s = .next s := rfl

/-- A run whose first step answers t goes on from t. -/
theorem runSteps_of_next {s t : State} (h : step s = .next t) (k : Nat) : runSteps (k + 1) s = runSteps k t := by
  rw [runSteps, h]

/-- The transactions of two programs, one after the other. -/
theorem programEvents_append (a b : List HostStmt) :
    programEvents (a ++ b) = programEvents a ++ programEvents b := by
  simp [programEvents]

end Sys2Proof.Machine
end

