-- ==== Sys2Proof/Tests/Slice0.lean ====
section
/-! SUPPORT. The model's own tests. Words are written out from the fields of R71 and the operations of R72, and the
expected values are the examples that the rules of spec/ give. The last part shows, for every statement with
hypotheses, states and operands that meet them, each clause by itself. -/

open Sys2Proof Sys2Proof.Machine

namespace Sys2Proof.Tests

/-! ## Well-formed command words (R76): one ill-formed word for each check, which the check refuses -/

theorem test_wf_rsv_refused : (splitCmd 0x0100).rsvOk = false ∧ (splitCmd 0x0100).wellFormed = false := by decide
theorem test_wf_op_refused : (splitCmd 0x000C).opOk = false ∧ (splitCmd 0x000C).wellFormed = false := by decide
theorem test_wf_inv_refused : (splitCmd 0x0021).invOk = false ∧ (splitCmd 0x0021).wellFormed = false := by decide
theorem test_wf_idx_refused : (splitCmd 0x0041).idxOk = false ∧ (splitCmd 0x0041).wellFormed = false := by decide
theorem test_wf_idx_range_refused :
    (splitCmd 0x00C9).idxInRange = false ∧ (splitCmd 0x00C9).wellFormed = false := by decide
theorem test_wf_legal_words : (legalWords.all fun v => (splitCmd v).wellFormed) = true := by decide

/-! ## Decoding: every command's word bit by bit, RSV, IDX, INV and OP -/

theorem test_decode_nop : decode 0b00000000_00_0_00000 = .ok .nop := by decide
theorem test_decode_gfmul : decode 0b00000000_00_0_00001 = .ok .gfmul := by decide
theorem test_decode_subnib : decode 0b00000000_00_0_00010 = .ok .subnib := by decide
theorem test_decode_subnibI : decode 0b00000000_00_1_00010 = .ok .subnibI := by decide
theorem test_decode_subbyte : decode 0b00000000_00_0_00011 = .ok .subbyte := by decide
theorem test_decode_subbyteI : decode 0b00000000_00_1_00011 = .ok .subbyteI := by decide
theorem test_decode_rotnib : decode 0b00000000_00_0_00100 = .ok .rotnib := by decide
theorem test_decode_subnibs : decode 0b00000000_00_0_00101 = .ok .subnibs := by decide
theorem test_decode_subnibsI : decode 0b00000000_00_1_00101 = .ok .subnibsI := by decide
theorem test_decode_shiftrows : decode 0b00000000_00_0_00110 = .ok .shiftrows := by decide
theorem test_decode_mixcol : decode 0b00000000_00_0_00111 = .ok .mixcol := by decide
theorem test_decode_mixcolI : decode 0b00000000_00_1_00111 = .ok .mixcolI := by decide
theorem test_decode_addkey : decode 0b00000000_00_0_01000 = .ok .addkey := by decide
theorem test_decode_keyexp0 : decode 0b00000000_00_0_01001 = .ok .keyexp0 := by decide
theorem test_decode_keyexp1 : decode 0b00000000_01_0_01001 = .ok .keyexp1 := by decide
theorem test_decode_keyexp2 : decode 0b00000000_10_0_01001 = .ok .keyexp2 := by decide
theorem test_decode_enc : decode 0b00000000_00_0_01010 = .ok .enc := by decide
theorem test_decode_dec : decode 0b00000000_00_0_01011 = .ok .dec := by decide
theorem test_decode_denc : decode 0b00000000_00_0_10000 = .ok .denc := by decide
theorem test_decode_ddec : decode 0b00000000_00_0_10001 = .ok .ddec := by decide
theorem test_decode_edeenc : decode 0b00000000_00_0_10010 = .ok .edeenc := by decide
theorem test_decode_ededec : decode 0b00000000_00_0_10011 = .ok .ededec := by decide
theorem test_decode_eeeenc : decode 0b00000000_00_0_10100 = .ok .eeeenc := by decide
theorem test_decode_eeedec : decode 0b00000000_00_0_10101 = .ok .eeedec := by decide
theorem test_decode_cbcei : decode 0b00000000_00_0_11000 = .ok .cbcei := by decide
theorem test_decode_cbceb : decode 0b00000000_00_0_11001 = .ok .cbceb := by decide
theorem test_decode_cbcek : decode 0b00000000_00_0_11010 = .ok .cbcek := by decide
theorem test_decode_cbcef : decode 0b00000000_00_0_11011 = .ok .cbcef := by decide
theorem test_decode_cbcdi : decode 0b00000000_00_0_11100 = .ok .cbcdi := by decide
theorem test_decode_cbcdb : decode 0b00000000_00_0_11101 = .ok .cbcdb := by decide
theorem test_decode_cbcdl : decode 0b00000000_00_0_11110 = .ok .cbcdl := by decide

theorem test_decode_keyexp3_refused : decode 0b00000000_11_0_01001 = .error .indexOutOfRange := by decide
theorem test_decode_rsv_refused : decode 0b10000000_00_0_00001 = .error .reservedBits := by decide
theorem test_decode_reserved_op_refused : decode 0b00000000_00_0_11111 = .error .reservedOp := by decide
theorem test_decode_table_word : decodeTableWord 16 0x0049 = some .keyexp1 ∧ decodeTableWord 16 0x00C9 = none := by
  decide

/-! ## One step of each command -/

/-- The state after the word w is written to CMD in the state s. -/
def stepped (w : Nat) (s : State) : State :=
  match step (s.withFetchWord 16 w) with
  | .next t => t
  | .fault _ => s
  | .refused _ => s

/-- Right after reset, with LAYOUT = COLUMN_MAJOR. -/
def columnReset : State := { State.reset with cfg := ⟨.columnMajor, defaultSBox⟩ }

/-- Right after reset, with DIN = d. -/
def dataState (d : Word) : State := { State.reset with din := d }

/-- The keys of the examples of R155 to R180, with DIN = d and KEYLEN = n. -/
def keyedState (n : BitVec 3) (d : Word) : State :=
  { State.reset with din := d, key1 := 0xA73B, key2 := 0xC0C3, key3 := 0x3C3C, keylen := n }

/-- A stream in MODE m with the key and chain value of the examples of R200 to R211, and DIN = d. -/
def streamState (m : BitVec 2) (chain d : Word) : State :=
  { State.reset with din := d, mode := m, cbckey := 0xA73B, chain := chain }

/-- DOUT and STATUS of a state. -/
def result (s : State) : Word × Word := (s.dout, statusWord s)

/-- R111's example. -/
theorem test_nop_step :
    result (stepped 0x0000 { State.reset with err := 4, outn := 2 }) = (0x0000, 0x0010) := by
  decide
/-- R112's example. -/
theorem test_gfmul_step : result (stepped 0x0001 (dataState 0x0047)) = (0x000F, 0x0010) := by decide
/-- R113's example. -/
theorem test_subnib_step : result (stepped 0x0002 (dataState 0x000A)) = (0x0000, 0x0010) := by decide
/-- R114's example. -/
theorem test_subnibI_step : result (stepped 0x0022 (dataState 0x0000)) = (0x000A, 0x0010) := by decide
/-- R115's example. -/
theorem test_subbyte_step : result (stepped 0x0003 (dataState 0x00A7)) = (0x0005, 0x0010) := by decide
/-- R116's example. -/
theorem test_subbyteI_step : result (stepped 0x0023 (dataState 0x0005)) = (0x00A7, 0x0010) := by decide
/-- R117's example. -/
theorem test_rotnib_step : result (stepped 0x0004 (dataState 0x003B)) = (0x00B3, 0x0010) := by decide
/-- R118's example. -/
theorem test_subnibs_step : result (stepped 0x0005 (dataState 0x1234)) = (0x4ABD, 0x0010) := by decide
/-- R119's example. -/
theorem test_subnibsI_step : result (stepped 0x0025 (dataState 0x4ABD)) = (0x1234, 0x0010) := by decide
/-- R120's example. -/
theorem test_shiftrows_step : result (stepped 0x0006 (dataState 0x1234)) = (0x1243, 0x0010) := by decide
/-- R120's example. -/
theorem test_shiftrows_column_step : (stepped 0x0006 { columnReset with din := 0x1234 }).dout = 0x1432 := by decide
/-- R121's example. -/
theorem test_mixcol_step : result (stepped 0x0007 (dataState 0x1234)) = (0xD17C, 0x0010) := by decide
/-- R121's example. -/
theorem test_mixcol_column_step : (stepped 0x0007 { columnReset with din := 0x1234 }).dout = 0x9608 := by decide
/-- R122's example. -/
theorem test_mixcolI_step : result (stepped 0x0027 (dataState 0xD17C)) = (0x1234, 0x0010) := by decide
/-- R155's example. -/
theorem test_addkey_step : result (stepped 0x0008 (keyedState 1 0x6B6B)) = (0xCC50, 0x0010) := by decide
/-- R155: KEY_LENGTH when KEYLEN is not 1. -/
theorem test_addkey_key_length : result (stepped 0x0008 (keyedState 2 0x6B6B)) = (0x0000, 0x0001) := by decide
/-- R156's example. -/
theorem test_keyexp0_step : result (stepped 0x0009 (keyedState 1 0)) = (0xA73B, 0x0010) := by decide
/-- R156's example. -/
theorem test_keyexp1_step : result (stepped 0x0049 (keyedState 1 0)) = (0x1C27, 0x0010) := by decide
/-- R156's example. -/
theorem test_keyexp2_step : result (stepped 0x0089 (keyedState 1 0)) = (0x7651, 0x0010) := by decide
/-- R157's example. -/
theorem test_enc_step : result (stepped 0x000A (keyedState 1 0x6B6B)) = (0x0BEE, 0x0010) := by decide
/-- R157: KEY_LENGTH when KEYLEN is not 1. -/
theorem test_enc_key_length : result (stepped 0x000A (keyedState 0 0x6B6B)) = (0x0000, 0x0001) := by decide
/-- R158's example. -/
theorem test_dec_step : result (stepped 0x000B (keyedState 1 0x0BEE)) = (0x6B6B, 0x0010) := by decide
/-- R175's example. -/
theorem test_denc_step : result (stepped 0x0010 (keyedState 2 0x6B6B)) = (0x43AE, 0x0010) := by decide +kernel
/-- R175: KEY_LENGTH when KEYLEN is not 2. -/
theorem test_denc_key_length : result (stepped 0x0010 (keyedState 3 0x6B6B)) = (0x0000, 0x0001) := by decide
/-- R176's example. -/
theorem test_ddec_step : result (stepped 0x0011 (keyedState 2 0x43AE)) = (0x6B6B, 0x0010) := by decide +kernel
/-- R177's example. -/
theorem test_edeenc_step : result (stepped 0x0012 (keyedState 2 0x6B6B)) = (0x1271, 0x0010) := by decide +kernel
/-- R178's example. -/
theorem test_ededec_step : result (stepped 0x0013 (keyedState 2 0x1271)) = (0x6B6B, 0x0010) := by decide +kernel
/-- R179's example. -/
theorem test_eeeenc_step : result (stepped 0x0014 (keyedState 3 0x6B6B)) = (0xBCB3, 0x0010) := by decide +kernel
/-- R179: KEYLEN = 2 with valid KEY1 and KEY2 still fails. -/
theorem test_eeeenc_key_length : result (stepped 0x0014 (keyedState 2 0x6B6B)) = (0x0000, 0x0001) := by decide
/-- R180's example. -/
theorem test_eeedec_step : result (stepped 0x0015 (keyedState 3 0xBCB3)) = (0x6B6B, 0x0010) := by decide +kernel
/-- R200's example. -/
theorem test_cbcei_step :
    (stepped 0x0018 { keyedState 1 0 with iv := 0xF0F0 }).chain = 0xF0F0
      ∧ (stepped 0x0018 { keyedState 1 0 with iv := 0xF0F0 }).cbckey = 0xA73B
      ∧ statusWord (stepped 0x0018 { keyedState 1 0 with iv := 0xF0F0 }) = 0x0020 := by
  decide
/-- R201: a first byte is held; DIN[15:8] is ignored. -/
theorem test_cbceb_first_byte :
    result (stepped 0x0019 (streamState 1 0xF0F0 0xFF48)) = (0x0000, 0x00A0)
      ∧ (stepped 0x0019 (streamState 1 0xF0F0 0xFF48)).pbuf = 0x48 := by
  decide
/-- R201's example. -/
theorem test_cbceb_second_byte :
    result (stepped 0x0019 { streamState 1 0xF0F0 0x0069 with pbuf := 0x48, pbv := 1 }) = (0x4532, 0x0030) := by
  decide
/-- R202's example. -/
theorem test_cbcek_step : result (stepped 0x001A (streamState 1 0xF0F0 0x4869)) = (0x4532, 0x0030) := by decide
/-- R202: SEQUENCE where a byte is held, which stays held. -/
theorem test_cbcek_half_block :
    result (stepped 0x001A { streamState 1 0xF0F0 0x4869 with pbuf := 0x48, pbv := 1 }) = (0x0000, 0x00A3) := by
  decide
/-- R203's example, the empty message. -/
theorem test_cbcef_empty : result (stepped 0x001B (streamState 1 0xF0F0 0)) = (0x102C, 0x0010) := by decide
/-- R203's example, three bytes. -/
theorem test_cbcef_odd :
    result (stepped 0x001B { streamState 1 0x4532 0 with pbuf := 0x21, pbv := 1 }) = (0xF785, 0x0010) := by
  decide
/-- R209's example. -/
theorem test_cbcdi_step :
    (stepped 0x001C { keyedState 1 0 with iv := 0xF0F0 }).chain = 0xF0F0
      ∧ statusWord (stepped 0x001C { keyedState 1 0 with iv := 0xF0F0 }) = 0x0040 := by
  decide
/-- R210's example. -/
theorem test_cbcdb_step : result (stepped 0x001D (streamState 2 0xF0F0 0x4532)) = (0x4869, 0x0050) := by decide
/-- R210: SEQUENCE when MODE is not DEC. -/
theorem test_cbcdb_idle : result (stepped 0x001D (streamState 0 0xF0F0 0x4532)) = (0x0000, 0x0003) := by decide
/-- R211's example. -/
theorem test_cbcdl_step : result (stepped 0x001E (streamState 2 0x4532 0xF785)) = (0x2100, 0x0008) := by decide
/-- R213: the last Block 0x4869 is no padded Block; the chain value is DIN. -/
theorem test_cbcdl_padding :
    result (stepped 0x001E (streamState 2 0xF0F0 0x4532)) = (0x0000, 0x0002)
      ∧ (stepped 0x001E (streamState 2 0xF0F0 0x4532)).chain = 0x4532 := by
  decide
/-- R231: an illegal word is kept in CMD. -/
theorem test_illegal_word :
    result (stepped 0x00C9 (dataState 0x1234)) = (0x0000, 0x0004)
      ∧ (stepped 0x00C9 (dataState 0x1234)).cmd = 0x00C9 := by
  decide

/-! ## The host's pseudo-instructions (R25, R80) -/

theorem test_keyp48 : expandPseudo (.keyp48 0xA73BC0C33C3C)
    = [.wr .key1 0xA73B, .wr .key2 0xC0C3, .wr .key3 0x3C3C, .wr .keylen 3] := by decide

theorem test_putb_wide : expandPseudo (.putb 0xFF48)
    = [.wr .din 0xFF48, .cmd .cbceb, .rd .status, .rd .dout] := by decide

theorem test_keyp32 : expandPseudo (.keyp32 0xA73BC0C3)
    = [.wr .key1 0xA73B, .wr .key2 0xC0C3, .wr .keylen 2] := by decide

/-! ## Witnesses: the hypotheses of every statement that has some are met -/

/-- A state in the middle of a block of an encryption stream. -/
def halfBlock : State := { streamState 1 0xF0F0 0x0069 with pbuf := 0x48, pbv := 1 }

/-- A decryption stream whose decrypted last Block is p: the chain value is chosen so. -/
def lastBlockState (p : Word) : State :=
  { streamState 2 0 0x4532 with chain := p ^^^ decrypt defaultConfig 0x4532 0xA73B }

/-- The decrypted last Block of a state. -/
def lastDecrypted (s : State) : Word := decrypt s.cfg s.din s.cbckey ^^^ s.chain

theorem halfBlock_legal : LegalState halfBlock :=
  ⟨by decide, by decide, by decide, by decide, by decide, by decide, by decide, by decide⟩

theorem evenBlock_legal : LegalState (streamState 1 0xF0F0 0x4869) :=
  ⟨by decide, by decide, by decide, by decide, by decide, by decide, by decide, by decide⟩

theorem test_witness_IllegalCommandWords :
    ∃ why, decode 0x00C9 = .error why :=
  ⟨_, rfl⟩

theorem test_witness_StepRunsDecodedCommand :
    decode 0x0001 = .ok .gfmul :=
  rfl

theorem test_witness_PortTransactions :
    (1 : BitVec 4) ∈ [1, 3, 9, 10, 11, 12, 13, 14, 15] ∧ (15 : BitVec 4) ∈ [1, 3, 9, 10, 11, 12, 13, 14, 15]
      ∧ decode 0x0000 = .ok .nop :=
  ⟨by decide, by decide, rfl⟩

theorem test_witness_PortReadMap :
    11 ≤ (11 : BitVec 4).toNat ∧ 11 ≤ (15 : BitVec 4).toNat :=
  by decide

theorem test_witness_StatusWordFields :
    ∃ t, step { halfBlock with pending := [.busWrite 2 0x1234] } = .next t
      ∧ HostEvent.busWrite 2 0x1234 ≠ .reset ∧ ∀ v, HostEvent.busWrite 2 0x1234 ≠ .busWrite 0 v :=
  ⟨_, rfl, by decide, fun v h => by injection h with h1 _; revert h1; decide⟩

/-- The clauses about CBCEB. -/
theorem test_witness_RegisterWriters :
    ∃ t, exec .cbceb (streamState 1 0xF0F0 0x4869) = .next t ∧ (streamState 1 0xF0F0 0x4869).pbv = 0
      ∧ Instr.cbceb ∉ [Instr.cbcei, .cbcdi, .cbcef, .cbcdl] ∧ Instr.cbceb ∉ [Instr.cbcei, .cbcdi] :=
  ⟨_, rfl, rfl, by decide, by decide⟩

/-- The other clauses. -/
theorem test_witness_RegisterWriters_other :
    (∃ t, exec .nop halfBlock = .next t) ∧ Instr.nop ∈ [Instr.nop, .cbcei, .cbcdi]
      ∧ Instr.nop ∉ [Instr.cbcei, .cbcdi, .cbceb, .cbcef]
      ∧ Instr.nop ∉ [Instr.cbcei, .cbcdi, .cbceb, .cbcek, .cbcef, .cbcdb, .cbcdl] :=
  ⟨⟨_, rfl⟩, by decide, by decide, by decide⟩

theorem test_witness_TransactionsInOrder :
    ∃ t, step { halfBlock with pending := [.busWrite 0 0x0019, .busRead 3] } = .next t :=
  ⟨_, rfl⟩

theorem test_witness_FirstCommandAfterReset :
    (keysNeeded .enc ≠ none ∧ State.reset.keylen = 0)
      ∧ (∃ t, step { State.reset with pending := [.busWrite 2 0x1234] } = .next t)
      ∧ (∀ v, HostEvent.busWrite 2 0x1234 ≠ .busWrite 7 v)
      ∧ Instr.cbcdl ∈ [Instr.cbceb, .cbcek, .cbcef, .cbcdb, .cbcdl] ∧ State.reset.mode = modeIdle
      ∧ HostEvent.busWrite 2 0x1234 ≠ .busWrite 0 0x0018 ∧ HostEvent.busWrite 2 0x1234 ≠ .busWrite 0 0x001C :=
  ⟨by decide, ⟨_, rfl⟩, fun v h => by injection h with h1 _; revert h1; decide, by decide, rfl, by decide, by decide⟩

theorem test_witness_StepKeepsInvariant :
    LegalState halfBlock ∧ ∃ t, step (halfBlock.withFetchWord 16 0x0019) = .next t :=
  ⟨halfBlock_legal, _, rfl⟩

theorem test_witness_ParametersNeverChange :
    ∃ t, runSteps 2 { State.reset with pending := [.reset, .busRead 0] } = .next t :=
  ⟨_, rfl⟩

theorem test_witness_MultiplyLaws :
    (0xF : Nibble) ≠ 0 ∧ (0x1 : Nibble) ≠ 0 :=
  by decide

theorem test_witness_TransformCommandFrame :
    Instr.nop ∈ transformCommands ∧ Instr.mixcolI ∈ transformCommands ∧ Instr.mixcolI ≠ .nop :=
  by decide

theorem test_witness_NopClearsError :
    ({ State.reset with err := 4, outn := 2 } : State).err = 4
      ∧ ({ State.reset with err := 4, outn := 2 } : State).outn = 2 :=
  ⟨rfl, rfl⟩

theorem test_witness_GfmulResult :
    (dataState 0x0005).din.extractLsb' 4 4 = 0#4 ∧ (dataState 0x0050).din.extractLsb' 0 4 = 0#4
      ∧ (dataState 0x0017).din.extractLsb' 4 4 = 1#4
      ∧ (dataState 0x0147).din.extractLsb' 0 8 = (dataState 0xFF47).din.extractLsb' 0 8
      ∧ resultOf .gfmul (dataState 0x0047) = some 0x000F :=
  by decide

theorem test_witness_SubstitutionCommands :
    resultOf .subnib (dataState 0x000A) = some 0x0000 :=
  by decide

theorem test_witness_RotnibResult :
    (dataState 0x0077).din.extractLsb' 0 4 = (dataState 0x0077).din.extractLsb' 4 4 :=
  by decide

theorem test_witness_ShiftrowsResult :
    State.reset.cfg.layout = .rowMajor ∧ columnReset.cfg.layout = .columnMajor
      ∧ resultOf .shiftrows (dataState 0x1234) = some 0x1243
      ∧ s10 .rowMajor (dataState 0x1233).din = s11 .rowMajor (dataState 0x1233).din :=
  by decide

theorem test_witness_MixColumnCommands :
    State.reset.cfg.layout = .rowMajor ∧ columnReset.cfg.layout = .columnMajor
      ∧ resultOf .mixcol (dataState 0x1234) = some 0xD17C :=
  by decide

theorem test_witness_AddkeyResult :
    (keyedState 1 0x6B6B).keylen = 1 ∧ (keyedState 0 0x6B6B).keylen ≠ 1 ∧ (keyedState 7 0x6B6B).keylen ≠ 1
      ∧ resultOf .addkey (keyedState 1 0x6B6B) = some 0xCC50
      ∧ (keyedState 1 0xA73B).din = (keyedState 1 0xA73B).key1 :=
  by decide

theorem test_witness_KeyexpReadsRoundKeys :
    (keyedState 1 0).keylen = 1 ∧ (keyedState 2 0).keylen ≠ 1
      ∧ Instr.keyexp0 ∈ [Instr.keyexp0, .keyexp1, .keyexp2] ∧ Instr.keyexp2 ∈ [Instr.keyexp0, .keyexp1, .keyexp2] :=
  by decide

theorem test_witness_EncryptDecryptCommands :
    (keyedState 1 0x6B6B).keylen = 1 ∧ (keyedState 2 0x6B6B).keylen ≠ 1
      ∧ resultOf .enc (keyedState 1 0x6B6B) = some 0x0BEE :=
  by decide

theorem test_witness_CipherFromSingleStepCommands :
    (keyedState 1 0x6B6B).keylen = 1 :=
  rfl

theorem test_witness_DoubleCommands :
    (keyedState 2 0x6B6B).keylen = 2 ∧ (keyedState 1 0x6B6B).keylen ≠ 2
      ∧ resultOf .denc (keyedState 2 0x6B6B) = some 0x43AE :=
  by decide +kernel

theorem test_witness_EdeCommands :
    (keyedState 2 0x6B6B).keylen = 2 ∧ (keyedState 3 0x6B6B).keylen ≠ 2
      ∧ ({ keyedState 2 0 with key2 := 0xA73B } : State).key1 = ({ keyedState 2 0 with key2 := 0xA73B } : State).key2
      ∧ resultOf .edeenc (keyedState 2 0x6B6B) = some 0x1271 :=
  by decide +kernel

theorem test_witness_EeeCommands :
    (keyedState 3 0x6B6B).keylen = 3 ∧ (keyedState 2 0x6B6B).keylen ≠ 3
      ∧ resultOf .eeeenc (keyedState 3 0x6B6B) = some 0xBCB3 :=
  by decide +kernel

theorem test_witness_KeyCommandFrame :
    Instr.addkey ∈ singleKeyCommands ++ multiKeyCommands ∧ keysNeeded .addkey = some (keyedState 1 0).keylen
      ∧ Instr.eeedec ∈ singleKeyCommands ++ multiKeyCommands ∧ keysNeeded .eeedec ≠ some (keyedState 2 0).keylen :=
  by decide

theorem test_witness_KeyLengthCheck :
    (keysNeeded .enc = some 1 ∧ State.reset.keylen ≠ 1) ∧ keysNeeded .edeenc = some (keyedState 2 0).keylen
      ∧ keysNeeded .cbcdl = none :=
  by decide

/-- Each condition of R196. -/
theorem test_witness_SequenceErrors :
    outOfSequence .cbceb State.reset ∧ outOfSequence .cbcdl halfBlock ∧ outOfSequence .cbcek halfBlock :=
  ⟨.inl (by decide), .inr (.inl (by decide)), .inr (.inr (by decide))⟩

theorem test_witness_SequenceErrors_none :
    ¬ outOfSequence .cbceb halfBlock :=
  by
  rintro (⟨_, h⟩ | ⟨h, _⟩ | ⟨h, _⟩)
  · exact h rfl
  · revert h; decide
  · revert h; decide

theorem test_witness_ErrorOfEveryCommand :
    keyLengthWrong .enc State.reset ∧ outOfSequence .cbceb State.reset
      ∧ paddingWrong .cbcdl (lastBlockState 0x4869) ∧ (0x000C : Word) ∉ legalWords :=
  ⟨⟨1, by decide⟩, .inl (by decide), ⟨rfl, rfl, by unfold validLastBlock; decide⟩, by decide⟩

theorem test_witness_ErrorOfEveryCommand_none :
    ¬ keyLengthWrong .nop halfBlock ∧ ¬ paddingWrong .nop halfBlock ∧ ¬ outOfSequence .nop halfBlock :=
  by
  refine ⟨?_, ?_, ?_⟩
  · rintro ⟨n, h, _⟩; revert h; revert n; decide
  · rintro ⟨h, _⟩; revert h; decide
  · rintro (⟨h, _⟩ | ⟨h, _⟩ | ⟨h, _⟩) <;> (revert h; decide)

theorem test_witness_ErrorsArePrecise :
    (∃ t, step { State.reset with pending := [.busWrite 0 0x0019] } = .next t ∧ t.err ≠ 0 ∧ t.err ≠ 2)
      ∧ ∃ t, step { lastBlockState 0x4869 with pending := [.busWrite 0 0x001E] } = .next t ∧ t.err = 2 :=
  ⟨⟨_, rfl, by decide, by decide⟩, ⟨_, rfl, by decide⟩⟩

theorem test_witness_ModeTransitions :
    ((keyedState 1 0).keylen = 1 ∧ (keyedState 2 0).keylen ≠ 1)
      ∧ (halfBlock.mode = modeEnc ∧ (lastBlockState 0).mode = modeDec)
      ∧ (State.reset.mode ≠ modeEnc ∧ (lastBlockState 0).mode ≠ modeEnc)
      ∧ (State.reset.mode ≠ modeDec ∧ halfBlock.mode ≠ modeDec)
      ∧ (Instr.cbcei ∈ [Instr.cbcei, .cbcdi] ∧ Instr.cbceb ∈ [Instr.cbceb, .cbcek]
        ∧ Instr.cbceb ∈ [Instr.cbceb, .cbcek, .cbcef] ∧ Instr.cbcdb ∈ [Instr.cbcdb, .cbcdl]) :=
  by decide

theorem test_witness_ModeTransitions_other :
    Instr.gfmul ∈ transformCommands ++ singleKeyCommands ++ multiKeyCommands
      ∧ ∃ t, exec .gfmul halfBlock = .next t :=
  ⟨by decide, _, rfl⟩

theorem test_witness_StreamKeepsItsKey :
    (4 : BitVec 4) ≠ 0 ∧ Instr.enc ∈ transformCommands ++ singleKeyCommands ++ multiKeyCommands
      ∧ Instr.cbceb ∈ [Instr.cbceb, .cbcek, .cbcef, .cbcdb, .cbcdl] :=
  by decide

theorem test_witness_OpenStreamCommands :
    (keyedState 1 0).keylen = 1 ∧ (keyedState 2 0).keylen ≠ 1 :=
  by decide

theorem test_witness_CbcebResult :
    ((streamState 1 0xF0F0 0x48).mode = 1 ∧ (streamState 1 0xF0F0 0x48).pbv = 0)
      ∧ (halfBlock.mode = 1 ∧ halfBlock.pbv = 1) ∧ State.reset.mode ≠ 1 :=
  by decide

theorem test_witness_CbcekResult :
    LegalState (streamState 1 0xF0F0 0x4869) ∧ (streamState 1 0xF0F0 0x4869).mode = 1
      ∧ (streamState 1 0xF0F0 0x4869).pbv = 0 ∧ (halfBlock.mode ≠ 1 ∨ halfBlock.pbv = 1) ∧ State.reset.mode ≠ 1 :=
  ⟨evenBlock_legal, rfl, rfl, .inr rfl, by decide⟩

theorem test_witness_CbcefResult :
    halfBlock.mode = 1 ∧ State.reset.mode ≠ 1 ∧ (keyedState 1 0).keylen = 1 :=
  by decide

theorem test_witness_CbcdbResult :
    (lastBlockState 0).mode = 2 ∧ State.reset.mode ≠ 2 :=
  by decide

/-- The five kinds of last Block of R212, at their boundary values. -/
theorem test_witness_CbcdlResult :
    (lastBlockState 0x0001).mode = 2 ∧ State.reset.mode ≠ 2
      ∧ loByte (lastDecrypted (lastBlockState 0x0001)) = 0x01 ∧ loByte (lastDecrypted (lastBlockState 0xFF01)) = 0x01
      ∧ lastDecrypted (lastBlockState 0x0202) = 0x0202
      ∧ (loByte (lastDecrypted (lastBlockState 0x0302)) = 0x02 ∧ hiByte (lastDecrypted (lastBlockState 0x0302)) ≠ 0x02)
      ∧ (loByte (lastDecrypted (lastBlockState 0x0102)) = 0x02 ∧ hiByte (lastDecrypted (lastBlockState 0x0102)) ≠ 0x02)
      ∧ loByte (lastDecrypted (lastBlockState 0x0000)) = 0x00
      ∧ 0x03 ≤ (loByte (lastDecrypted (lastBlockState 0x0003))).toNat
      ∧ 0x03 ≤ (loByte (lastDecrypted (lastBlockState 0x00FF))).toNat :=
  by decide

theorem test_witness_CbcdlResult_outcomes :
    (stepped 0x001E (lastBlockState 0x0001)).err = 0 ∧ (stepped 0x001E (lastBlockState 0x0202)).err = 0
      ∧ (stepped 0x001E (lastBlockState 0x0302)).err = 2 ∧ (stepped 0x001E (lastBlockState 0x0000)).err = 2
      ∧ (stepped 0x001E (lastBlockState 0x0003)).err = 2 :=
  by decide

theorem test_witness_ChainingEquations :
    ([0x1234, 0x5678] : List Word)[0]? = some 0x1234 ∧ ([0x1234, 0x5678] : List Word)[1]? = some 0x5678 :=
  by decide

theorem test_witness_PaddedBlocks :
    ([0x41] : List Byte).length % 2 = 1 ∧ ([] : List Byte).length % 2 = 0 ∧ ([0x41, 0x42] : List Byte).length % 2 = 0 :=
  by decide

theorem test_witness_UnpadAcceptsPaddedBlocks :
    validLastBlock 0x4101 ∧ validLastBlock 0x0202 ∧ ¬ validLastBlock 0x0302 ∧ ¬ validLastBlock 0x0000
      ∧ ¬ validLastBlock 0x0303 :=
  by unfold validLastBlock; decide

theorem test_witness_EncryptionStreamLaw :
    LegalState (streamState 1 0xF0F0 0x4869) ∧ (streamState 1 0xF0F0 0x4869).mode = modeEnc
      ∧ (streamState 1 0xF0F0 0x4869).pbv = 0 :=
  ⟨evenBlock_legal, rfl, rfl⟩

theorem test_witness_DecryptionStreamLaw :
    cbcDecrypt defaultConfig 0xA73B 0xF0F0 ([0x4532] ++ [0xF785]) = some [0x48, 0x69, 0x21]
      ∧ cbcDecrypt defaultConfig 0xA73B 0xF0F0 ([] ++ [0x4532]) = none :=
  by decide

theorem test_witness_IvSensitivity :
    (0x0000 : Word) ≠ 0x0001 :=
  by decide

theorem test_witness_CbcErrorPropagation :
    ([0x4532, 0xF785] : List Word)[0]? = some 0x4532 ∧ (0x4533 : Word) ≠ 0x4532 :=
  by decide

theorem test_witness_OnlyCbckeyHidden :
    visible halfBlock = visible { halfBlock with pending := [.reset] }
      ∧ halfBlock.cbckey = ({ halfBlock with pending := [.reset] } : State).cbckey :=
  ⟨rfl, rfl⟩

end Sys2Proof.Tests
end

/-! ## What a command, an event and a step can do

Each of `exec`, `handleEvent` and `step` always answers, and its answer is one of a few cases. They are said once here,
guards included; invariants and frames are then short case analyses. -/

namespace Sys2Proof.Machine

/-- The commands whose success is `writeResult`: those of 41 to 43 but NOP. -/
def dataCommands : List Instr := transformCommands.tail ++ singleKeyCommands ++ multiKeyCommands

/-- What the command i can make of the state s (R110 to R122, R155 to R158, R175 to R180, R200 to R203,
R209 to R213). -/
inductive CommandEffect (s : State) : Instr → State → Prop
  /-- NOP. -/
  | completes : CommandEffect s .nop (complete s)
  /-- A data command that succeeds. -/
  | result {i : Instr} (v : Word) : i ∈ dataCommands → ¬ keyLengthWrong i s → CommandEffect s i (writeResult v s)
  /-- The key-length check fails (R232). -/
  | keyLengthError {i : Instr} : keyLengthWrong i s → CommandEffect s i (raise .keyLength s)
  /-- The sequence check fails (R196). -/
  | sequenceError {i : Instr} : outOfSequence i s → CommandEffect s i (raise .sequence s)
  /-- CBCEI opens an encryption stream. -/
  | opensEnc : s.keylen = 1 → CommandEffect s .cbcei (openStream modeEnc s)
  /-- CBCDI opens a decryption stream. -/
  | opensDec : s.keylen = 1 → CommandEffect s .cbcdi (openStream modeDec s)
  /-- CBCEB on the first byte of a block. -/
  | holds : s.mode = modeEnc → s.pbv = 0 → CommandEffect s .cbceb (holdByte (dinByte s) s)
  /-- CBCEB on the second byte of a block. -/
  | emitsPair : s.mode = modeEnc → s.pbv = 1 →
      CommandEffect s .cbceb (dropByte (emitBlock (chainEncrypt (joinBytes s.pbuf (dinByte s)) s) s))
  /-- CBCEK on a block boundary. -/
  | emitsBlock : s.mode = modeEnc → s.pbv ≠ 1 → CommandEffect s .cbcek (emitBlock (chainEncrypt s.din s) s)
  /-- CBCEF emits the last Block and closes the stream. -/
  | finishes : s.mode = modeEnc →
      CommandEffect s .cbcef (closeStream (dropByte (emitBlock (chainEncrypt (lastBlock s) s) s)))
  /-- CBCDB. -/
  | decrypts : s.mode = modeDec → CommandEffect s .cbcdb (writeResult (chainDecrypt s) (takeChain s))
  /-- CBCDL closes the stream, whatever the unpadding check says. -/
  | unpads : s.mode = modeDec →
      CommandEffect s .cbcdl (unpadResult (chainDecrypt s) (closeStream (takeChain s)))

/-- A command that reads no KEYLEN never has the wrong one. -/
theorem not_keyLengthWrong_of_none {i : Instr} (h : keysNeeded i = none) (s : State) : ¬ keyLengthWrong i s := by
  rintro ⟨n, hn, -⟩
  rw [h] at hn
  cases hn

/-- For a command that needs n keys, the error is due exactly where KEYLEN is not n (R232). -/
theorem keyLengthWrong_iff {i : Instr} {n : BitVec 3} (h : keysNeeded i = some n) (s : State) :
    keyLengthWrong i s ↔ s.keylen ≠ n := by
  simp [keyLengthWrong, h]

/-- A data command without a key-length check gives its result. -/
theorem CommandEffect.of_writeResult {i : Instr} {s : State} {v : Word} (hi : i ∈ dataCommands)
    (hn : keysNeeded i = none) : CommandEffect s i (writeResult v s) :=
  .result v hi (not_keyLengthWrong_of_none hn s)

/-- A command behind a key-length check does what it does once the check has passed, or raises KEY_LENGTH. -/
theorem CommandEffect.of_withKeys {i : Instr} {n : BitVec 3} {s : State} {f : State → State}
    (hn : keysNeeded i = some n) (hf : s.keylen = n → CommandEffect s i (f s)) :
    CommandEffect s i (withKeys n f s) := by
  obtain ⟨hk, h⟩ | ⟨hk, h⟩ := withKeys_cases n f s <;> rw [h]
  · exact hf hk
  · exact .keyLengthError ((keyLengthWrong_iff hn s).2 hk)

/-- A data command with a key-length check gives its result or raises KEY_LENGTH. -/
theorem CommandEffect.of_withKeys_writeResult {i : Instr} {n : BitVec 3} {s : State} {f : State → Word}
    (hi : i ∈ dataCommands) (hn : keysNeeded i = some n) :
    CommandEffect s i (withKeys n (fun s => writeResult (f s) s) s) :=
  .of_withKeys hn fun hk => .result _ hi fun hw => (keyLengthWrong_iff hn s).1 hw hk

/-- A stream command does what it does in its own MODE, or raises SEQUENCE. -/
theorem CommandEffect.of_inMode {i : Instr} {m : BitVec 2} {s : State} {f : State → State}
    (hw : s.mode ≠ m → outOfSequence i s) (hf : s.mode = m → CommandEffect s i (f s)) :
    CommandEffect s i (inMode m f s) := by
  obtain ⟨hm, h⟩ | ⟨hm, h⟩ := inMode_cases m f s <;> rw [h]
  · exact hf hm
  · exact .sequenceError (hw hm)

/-- An encryption-stream command outside an encryption stream is out of sequence (R196). -/
theorem outOfSequence_of_enc {i : Instr} {s : State} (hi : i ∈ [Instr.cbceb, .cbcek, .cbcef])
    (h : s.mode ≠ modeEnc) : outOfSequence i s := .inl ⟨hi, h⟩

/-- A decryption-stream command outside a decryption stream is out of sequence (R196). -/
theorem outOfSequence_of_dec {i : Instr} {s : State} (hi : i ∈ [Instr.cbcdb, .cbcdl]) (h : s.mode ≠ modeDec) :
    outOfSequence i s := .inr (.inl ⟨hi, h⟩)

/-- CBCEB in an encryption stream holds the byte or emits the pair. -/
theorem CommandEffect.of_takeByte {s : State} (hm : s.mode = modeEnc) : CommandEffect s .cbceb (takeByte s) := by
  obtain ⟨hp, h⟩ | ⟨hp, h⟩ := takeByte_cases s <;> rw [h]
  · exact .holds hm hp
  · exact .emitsPair hm hp

/-- CBCEK in an encryption stream emits the block, or raises SEQUENCE where a byte is held. -/
theorem CommandEffect.of_takeBlock {s : State} (hm : s.mode = modeEnc) : CommandEffect s .cbcek (takeBlock s) := by
  obtain ⟨hp, h⟩ | ⟨hp, h⟩ := takeBlock_cases s <;> rw [h]
  · exact .sequenceError (.inr (.inr ⟨rfl, hp⟩))
  · exact .emitsBlock hm hp

/-- Every command answers, with one of the effects above. -/
theorem exec_effect (i : Instr) (s : State) : ∃ t, exec i s = .next t ∧ CommandEffect s i t := by
  cases i with
  | nop => exact ⟨_, rfl, .completes⟩
  | cbcei => exact ⟨_, rfl, .of_withKeys rfl .opensEnc⟩
  | cbcdi => exact ⟨_, rfl, .of_withKeys rfl .opensDec⟩
  | cbceb => exact ⟨_, rfl, .of_inMode (outOfSequence_of_enc (by decide)) .of_takeByte⟩
  | cbcek => exact ⟨_, rfl, .of_inMode (outOfSequence_of_enc (by decide)) .of_takeBlock⟩
  | cbcef => exact ⟨_, rfl, .of_inMode (outOfSequence_of_enc (by decide)) .finishes⟩
  | cbcdb => exact ⟨_, rfl, .of_inMode (outOfSequence_of_dec (by decide)) .decrypts⟩
  | cbcdl => exact ⟨_, rfl, .of_inMode (outOfSequence_of_dec (by decide)) .unpads⟩
  | gfmul | subnib | subnibI | subbyte | subbyteI | rotnib | subnibs | subnibsI | shiftrows | mixcol | mixcolI =>
    exact ⟨_, rfl, .of_writeResult (by decide) rfl⟩
  | addkey | keyexp0 | keyexp1 | keyexp2 | enc | dec | denc | ddec | edeenc | ededec | eeeenc | eeedec =>
    exact ⟨_, rfl, .of_withKeys_writeResult (by decide) rfl⟩

/-- A state that a command answers is one of its effects. -/
theorem commandEffect_of_exec {i : Instr} {s t : State} (h : exec i s = .next t) : CommandEffect s i t := by
  obtain ⟨t', ht', heff⟩ := exec_effect i s
  cases h.symm.trans ht'
  exact heff

/-- What one event can make of the state s (R57, R58, R231, R260). -/
inductive EventEffect (s : State) : HostEvent → State → Prop
  /-- A read. -/
  | read (a : BitVec 4) : EventEffect s (.busRead a) (busReadReply a s)
  /-- A write to a register other than CMD. -/
  | store {a : BitVec 4} (v : Word) : a ≠ 0 → EventEffect s (.busWrite a v) (storeReg (portReg a) v s)
  /-- A write of a command's word to CMD. -/
  | command {v : Word} {i : Instr} {t : State} :
      decode v = .ok i → CommandEffect { s with cmd := v } i t → EventEffect s (.busWrite 0 v) t
  /-- A write of another word to CMD. -/
  | illegal {v : Word} {why : IllegalCmd} :
      decode v = .error why → EventEffect s (.busWrite 0 v) (raise .illegalCmd { s with cmd := v })
  /-- Reset. -/
  | reset : EventEffect s .reset (coreReset s)

/-- A write to CMD answers, with the effect of its command or of an illegal word. -/
theorem busWrite_cmd_effect (v : Word) (s : State) :
    ∃ t, busWrite 0 v s = .next t ∧ EventEffect s (.busWrite 0 v) t := by
  rw [busWrite_cmd]
  obtain ⟨i, hi, h⟩ | ⟨why, hw, h⟩ := runCommand_cases v { s with cmd := v }
  · obtain ⟨t, ht, heff⟩ := exec_effect i { s with cmd := v }
    exact ⟨t, h.trans ht, .command hi heff⟩
  · exact ⟨_, h, .illegal hw⟩

/-- Every event is answered, with one of the effects above (R51, R237). -/
theorem handleEvent_effect (e : HostEvent) (s : State) : ∃ t, handleEvent e s = .next t ∧ EventEffect s e t := by
  cases e with
  | busRead a => exact ⟨_, rfl, .read a⟩
  | reset => exact ⟨_, rfl, .reset⟩
  | busWrite a v =>
    by_cases ha : a = 0
    · subst ha; exact busWrite_cmd_effect v s
    · exact ⟨_, busWrite_of_ne_zero ha v s, .store v ha⟩

/-- The effect of the step that handles the event e. -/
theorem eventEffect_of_step {s t : State} {e : HostEvent} {rest : List HostEvent}
    (h : step { s with pending := e :: rest } = .next t) : EventEffect { s with pending := rest } e t := by
  obtain ⟨t', ht', heff⟩ := handleEvent_effect e { s with pending := rest }
  cases h.symm.trans ((step_cons s e rest).trans ht')
  exact heff

/-- A step leaves the state alone where no event is pending, and otherwise has the effect of the next event. -/
theorem step_effect {s t : State} (h : step s = .next t) :
    t = s ∨ ∃ e rest, s.pending = e :: rest ∧ EventEffect { s with pending := rest } e t := by
  cases hp : s.pending with
  | nil =>
    have hs : step s = .next s := by simp [step, nextEvent, hp]
    cases h.symm.trans hs
    exact .inl rfl
  | cons e rest =>
    have hs : s = { s with pending := e :: rest } := by rw [← hp]
    exact .inr ⟨e, rest, rfl, eventEffect_of_step (hs ▸ h)⟩

end Sys2Proof.Machine

/-! ## Frames: what commands and events leave alone -/

namespace Sys2Proof.Machine

/-- t is s but for what a command may write: DOUT, CHAIN, PBUF, CBCKEY and the fields of STATUS (R38). -/
def onlyCommandRegsChanged (s t : State) : Prop :=
  t = { s with
    dout := t.dout, chain := t.chain, pbuf := t.pbuf, cbckey := t.cbckey
    err := t.err, outn := t.outn, mode := t.mode, pbv := t.pbv }

/-- t is s but for what the host writes: CMD, DIN, the keys, KEYLEN, IV, and the model's own host side (R38). -/
def onlyHostRegsChanged (s t : State) : Prop :=
  t = { s with
    cmd := t.cmd, din := t.din, key1 := t.key1, key2 := t.key2, key3 := t.key3, keylen := t.keylen, iv := t.iv
    pending := t.pending, replies := t.replies }

/-- The registers that no command writes. -/
theorem onlyCommandRegsChanged.host_regs {s t : State} (h : onlyCommandRegsChanged s t) :
    t.cmd = s.cmd ∧ t.din = s.din ∧ t.key1 = s.key1 ∧ t.key2 = s.key2 ∧ t.key3 = s.key3
      ∧ t.keylen = s.keylen ∧ t.iv = s.iv := by
  rw [h]
  exact ⟨rfl, rfl, rfl, rfl, rfl, rfl, rfl⟩

/-- The parameters and the host side, which no command writes. -/
theorem onlyCommandRegsChanged.environment {s t : State} (h : onlyCommandRegsChanged s t) :
    t.cfg = s.cfg ∧ t.pending = s.pending ∧ t.replies = s.replies := by
  rw [h]
  exact ⟨rfl, rfl, rfl⟩

/-- The fields of STATUS, which no write to a host register changes (R29). -/
theorem onlyHostRegsChanged.status {s t : State} (h : onlyHostRegsChanged s t) :
    t.err = s.err ∧ t.outn = s.outn ∧ t.mode = s.mode ∧ t.pbv = s.pbv := by
  rw [h]
  exact ⟨rfl, rfl, rfl, rfl⟩

/-- The parameters, which no write to a host register changes (R44). -/
theorem onlyHostRegsChanged.cfg_eq {s t : State} (h : onlyHostRegsChanged s t) : t.cfg = s.cfg := by
  rw [h]

/-- A change of the result alone leaves the CBC state. -/
theorem onlyResultChanged.stream {s t : State} (h : onlyResultChanged s t) : sameStream s t := by
  rw [h]
  exact ⟨rfl, rfl, rfl, rfl, rfl⟩

/-- CBCDL's outcome is in DOUT, OUTN and ERR alone (R211, R213). -/
theorem unpadResult_onlyResultChanged (p : Word) (s : State) : onlyResultChanged s (unpadResult p s) := by
  obtain ⟨_, h⟩ | ⟨_, _, h⟩ | ⟨_, _, h⟩ := unpadResult_cases p s
  all_goals rw [h]; rfl

/-- CBCDL leaves the decryption stream closed, with the ciphertext Block as the chain value (R211). -/
theorem unpadResult_takeChain_frame (p : Word) (s : State) :
    onlyCommandRegsChanged s (unpadResult p (closeStream (takeChain s))) := by
  have h := unpadResult_onlyResultChanged p (closeStream (takeChain s))
  rw [h]
  rfl

/-- Every command writes command registers alone (R38). -/
theorem CommandEffect.frame {i : Instr} {s t : State} (h : CommandEffect s i t) : onlyCommandRegsChanged s t := by
  cases h with
  | unpads => exact unpadResult_takeChain_frame _ s
  | _ => rfl

/-- NOP has no check to fail, so completing is its one effect (R111). -/
theorem CommandEffect.nop_eq {s t : State} (h : CommandEffect s .nop t) : t = complete s := by
  cases h with
  | completes => rfl
  | result v hi => exact absurd hi (by decide)
  | keyLengthError hw => exact absurd hw (not_keyLengthWrong_of_none rfl s)
  | sequenceError hw => simp [outOfSequence] at hw

/-- A data command is none of those that leave DOUT alone. -/
theorem not_mem_of_mem_dataCommands {i : Instr} (hi : i ∈ dataCommands) : i ∉ [Instr.nop, .cbcei, .cbcdi] := by
  revert hi; revert i; decide

/-- NOP, CBCEI and CBCDI do not write DOUT (R38). -/
theorem CommandEffect.dout_eq {i : Instr} {s t : State} (h : CommandEffect s i t)
    (hi : i ∈ [Instr.nop, .cbcei, .cbcdi]) : t.dout = s.dout := by
  cases h with
  | result v hd => exact absurd hi (not_mem_of_mem_dataCommands hd)
  | emitsPair | emitsBlock | finishes | decrypts | unpads => exact absurd hi (by decide)
  | _ => rfl

/-- MODE is written by CBCEI, CBCDI, CBCEF and CBCDL alone (R32, R38). -/
theorem CommandEffect.mode_eq {i : Instr} {s t : State} (h : CommandEffect s i t)
    (hi : i ∉ [Instr.cbcei, .cbcdi, .cbcef, .cbcdl]) : t.mode = s.mode := by
  cases h with
  | opensEnc | opensDec | finishes | unpads => exact absurd (by decide) hi
  | _ => rfl

/-- PBV and PBUF are written by CBCEI, CBCDI, CBCEB and CBCEF alone (R33, R38). -/
theorem CommandEffect.buffer_eq {i : Instr} {s t : State} (h : CommandEffect s i t)
    (hi : i ∉ [Instr.cbcei, .cbcdi, .cbceb, .cbcef]) : t.pbv = s.pbv ∧ t.pbuf = s.pbuf := by
  cases h with
  | opensEnc | opensDec | holds | emitsPair | finishes => exact absurd (by decide) hi
  | unpads =>
    obtain ⟨_, hpbv, hpbuf, _, _⟩ :=
      (unpadResult_onlyResultChanged (chainDecrypt s) (closeStream (takeChain s))).stream
    exact ⟨hpbv, hpbuf⟩
  | _ => exact ⟨rfl, rfl⟩

/-- CHAIN is written by the stream commands alone (R34, R38). -/
theorem CommandEffect.chain_eq {i : Instr} {s t : State} (h : CommandEffect s i t)
    (hi : i ∉ [Instr.cbcei, .cbcdi, .cbceb, .cbcek, .cbcef, .cbcdb, .cbcdl]) : t.chain = s.chain := by
  cases h with
  | opensEnc | opensDec | holds | emitsPair | emitsBlock | finishes | decrypts | unpads => exact absurd (by decide) hi
  | _ => rfl

/-- CBCKEY is written by CBCEI and CBCDI alone (R36). -/
theorem CommandEffect.cbckey_eq {i : Instr} {s t : State} (h : CommandEffect s i t)
    (hi : i ∉ [Instr.cbcei, .cbcdi]) : t.cbckey = s.cbckey := by
  cases h with
  | opensEnc | opensDec => exact absurd (by decide) hi
  | unpads =>
    obtain ⟨_, _, _, _, hkey⟩ :=
      (unpadResult_onlyResultChanged (chainDecrypt s) (closeStream (takeChain s))).stream
    exact hkey
  | _ => rfl

/-- CBCEB on the first byte of a block emits nothing (R201). -/
theorem CommandEffect.cbceb_first_byte {s t : State} (h : CommandEffect s .cbceb t) (hp : s.pbv = 0) :
    t.chain = s.chain ∧ t.dout = s.dout := by
  cases h with
  | result v hd => exact absurd hd (by decide)
  | emitsPair _ hp' => exact absurd (hp.symm.trans hp') (by decide)
  | _ => exact ⟨rfl, rfl⟩

/-- Settles O8: the frame of a command, and per register the effects that write it. -/
theorem registerWriters : Obligations.RegisterWriters := by
  intro i s t h
  have heff := commandEffect_of_exec h
  refine ⟨heff.frame.host_regs, heff.frame.environment, ?nop, heff.dout_eq, heff.mode_eq,
    heff.buffer_eq, heff.chain_eq, heff.cbckey_eq, ?firstByte⟩
  case nop =>
    rintro rfl
    rw [heff.nop_eq]
    rfl
  case firstByte =>
    rintro rfl
    exact heff.cbceb_first_byte

/-- A write changes host registers alone (R38). -/
theorem storeReg_frame (r : PortReg) (v : Word) (s : State) : onlyHostRegsChanged s (storeReg r v s) := by
  cases r <;> rfl

/-- The parameters stay under every event, reset included (R44). -/
theorem EventEffect.cfg_eq {e : HostEvent} {s t : State} (h : EventEffect s e t) : t.cfg = s.cfg := by
  cases h with
  | read | illegal | reset => rfl
  | store v _ => exact (storeReg_frame _ v s).cfg_eq
  | command _ heff => exact heff.frame.environment.1

/-- No step writes the parameters (R39, R44). -/
theorem step_cfg {s t : State} (h : step s = .next t) : t.cfg = s.cfg := by
  obtain rfl | ⟨e, rest, _, heff⟩ := step_effect h
  · rfl
  · exact heff.cfg_eq

/-- A relation between equal states that a step can be put in front of relates the two ends of every run. -/
theorem runSteps_induction {R : State → State → Prop} (hrefl : ∀ s, R s s)
    (hstep : ∀ s t u, step s = .next t → R t u → R s u) {k : Nat} {s u : State} (h : runSteps k s = .next u) :
    R s u := by
  induction k generalizing s with
  | zero =>
    cases h
    exact hrefl _
  | succ k ih =>
    rw [runSteps] at h
    cases hs : step s with
    | next t =>
      rw [hs] at h
      exact hstep s t u hs (ih h)
    | fault why => nomatch why
    | refused why =>
      rw [hs] at h
      cases h

/-- Settles O15, by induction on the number of steps. -/
theorem parametersNeverChange : Obligations.ParametersNeverChange := by
  intro k s t h
  exact runSteps_induction (R := fun s t => t.cfg = s.cfg) (fun _ => rfl)
    (fun _ _ _ hs hu => hu.trans (step_cfg hs)) h

end Sys2Proof.Machine

/-! ## The invariant: each operation keeps the legal states -/

namespace Sys2Proof.Machine

/-- Every code of R230 is at most 4. -/
theorem errBits_le (e : ErrCode) : (errBits e).toNat ≤ 4 := by
  cases e <;> decide

/-- The codes of R230 are distinct. -/
@[simp] theorem errBits_inj (e e' : ErrCode) : errBits e = errBits e' ↔ e = e' := by
  cases e <;> cases e' <;> decide

/-- The invariant reads no register that the host writes. -/
theorem LegalState.of_onlyHostRegsChanged {s t : State} (hs : LegalState s) (h : onlyHostRegsChanged s t) :
    LegalState t := by
  rw [h]
  exact { hs with }

/-- The invariant does not read CHAIN. -/
theorem LegalState.takeChain {s : State} (hs : LegalState s) : LegalState (takeChain s) := { hs with }

/-- ERR = OK allows every DOUT and OUTN that agree on the valid bytes, in any stream state. -/
theorem LegalState.withResult {s : State} (hs : LegalState s) (v : Word) {n : BitVec 2} (hn : n ≠ 3)
    (hv : n = 1 → loByte v = 0) : LegalState { s with dout := v, outn := n, err := errBits .ok } :=
  { hs with
    err_legal := errBits_le .ok
    outn_legal := hn
    one_byte := hv
    error_no_output := fun h => absurd rfl h
    padding_hides := by simp }

/-- NOP keeps the result and its byte count, which were legal before (R111). -/
theorem LegalState.complete {s : State} (hs : LegalState s) : LegalState (complete s) :=
  hs.withResult s.dout hs.outn_legal hs.one_byte

/-- A whole result has OUTN = 2 and ERR = OK, so nothing is asked of its value (R31). -/
theorem LegalState.writeResult {s : State} (hs : LegalState s) (v : Word) : LegalState (writeResult v s) :=
  hs.withResult v (by decide) (by simp)

/-- Emitting a block is a result and a new CHAIN. -/
theorem LegalState.emitBlock {s : State} (hs : LegalState s) (c : Word) : LegalState (emitBlock c s) :=
  { hs.writeResult c with }

/-- An error leaves no output; PADDING needs DOUT = 0 and the stream closed as well (R16, R213). -/
theorem LegalState.raise {s : State} (hs : LegalState s) {e : ErrCode}
    (he : e = .padding → s.dout = 0 ∧ s.mode = modeIdle) : LegalState (raise e s) :=
  { hs with
    err_legal := errBits_le e
    outn_legal := by simp
    one_byte := by simp
    error_no_output := fun _ => rfl
    padding_hides := fun h => he ((errBits_inj e .padding).1 h) }

/-- A state without error, output or held byte is legal in any MODE of R32. -/
theorem LegalState.of_cleared {s : State} (herr : s.err = errBits .ok) (houtn : s.outn = 0) (hmode : s.mode ≠ 3)
    (hpbv : s.pbv = 0) (hpbuf : s.pbuf = 0) : LegalState s where
  err_legal := herr ▸ errBits_le .ok
  outn_legal := by simp [houtn]
  mode_legal := hmode
  buffer_empty _ := hpbuf
  held_in_enc := by simp [hpbv]
  one_byte := by simp [houtn]
  error_no_output _ := houtn
  padding_hides := by simp [herr]

/-- Opening a stream empties the byte buffer and leaves no output (R200, R209). -/
theorem LegalState.openStream {s : State} {m : BitVec 2} (hm : m ≠ 3) : LegalState (openStream m s) :=
  .of_cleared rfl rfl hm rfl rfl

/-- A byte is held in an encryption stream (R201). -/
theorem LegalState.holdByte {s : State} (hs : LegalState s) (hm : s.mode = modeEnc) (b : Byte) :
    LegalState (holdByte b s) :=
  { hs.withResult s.dout (n := 0) (by decide) (by simp) with
    buffer_empty := by simp
    held_in_enc := fun _ => hm }

/-- The byte buffer is emptied whole, PBV and PBUF together (R33). -/
theorem LegalState.dropByte {s : State} (hs : LegalState s) : LegalState (dropByte s) :=
  { hs with
    buffer_empty := fun _ => rfl
    held_in_enc := by simp }

/-- A stream closes with no byte held (R195). -/
theorem LegalState.closeStream {s : State} (hs : LegalState s) (hp : s.pbv ≠ 1) : LegalState (closeStream s) :=
  { hs with
    mode_legal := by simp [modeIdle]
    held_in_enc := fun h => absurd h hp
    padding_hides := fun h => ⟨(hs.padding_hides h).1, rfl⟩ }

/-- Outside an encryption stream no byte is held (R33, R195). -/
theorem LegalState.not_held {s : State} (hs : LegalState s) (hm : s.mode ≠ modeEnc) : s.pbv ≠ 1 :=
  fun h => hm (hs.held_in_enc h)

/-- The one byte that remains of a last Block is in DOUT[15:8] (R31, R212). -/
@[simp] theorem loByte_and_ff00 (p : Word) : loByte (p &&& 0xFF00) = 0 := by
  have h : (0xFF00 : Word).extractLsb' 0 8 = 0 := by decide
  rw [loByte, BitVec.extractLsb'_and, h]
  exact BitVec.and_zero

/-- The outcome of CBCDL is legal in each of its three cases, once the stream is closed (R211 to R213). -/
theorem LegalState.unpadResult {s : State} (hs : LegalState s) (hm : s.mode = modeIdle) (p : Word) :
    LegalState (unpadResult p s) := by
  obtain ⟨_, h⟩ | ⟨_, _, h⟩ | ⟨_, _, h⟩ := unpadResult_cases p s <;> rw [h]
  case inl => exact hs.withResult _ (by decide) fun _ => loByte_and_ff00 p
  case inr.inl => exact hs.withResult _ (by decide) (by decide)
  case inr.inr =>
    have hz : LegalState { s with dout := 0 } :=
      { hs with one_byte := fun _ => rfl, padding_hides := fun _ => ⟨rfl, hm⟩ }
    exact hz.raise fun _ => ⟨rfl, hm⟩

/-- Reset is a legal state (R260). -/
theorem LegalState.coreReset (s : State) : LegalState (coreReset s) :=
  .of_cleared rfl rfl (by simp) rfl rfl

/-- Every command keeps the invariant. -/
theorem CommandEffect.legal {i : Instr} {s t : State} (h : CommandEffect s i t) (hs : LegalState s) : LegalState t := by
  cases h with
  | completes => exact hs.complete
  | result v => exact hs.writeResult v
  | keyLengthError | sequenceError => exact hs.raise nofun
  | opensEnc | opensDec => exact .openStream (by decide)
  | holds hm => exact hs.holdByte hm _
  | emitsPair => exact (hs.emitBlock _).dropByte
  | emitsBlock => exact hs.emitBlock _
  | finishes => exact (hs.emitBlock _).dropByte.closeStream (by simp)
  | decrypts => exact hs.takeChain.writeResult _
  | unpads hm =>
    have hp : s.pbv ≠ 1 := hs.not_held (by rw [hm]; decide)
    exact (hs.takeChain.closeStream hp).unpadResult rfl _

/-- Every event keeps the invariant. -/
theorem EventEffect.legal {e : HostEvent} {s t : State} (h : EventEffect s e t) (hs : LegalState s) : LegalState t := by
  have hcmd : ∀ v : Word, LegalState { s with cmd := v } := fun _ => hs.of_onlyHostRegsChanged rfl
  cases h with
  | read a => exact hs.of_onlyHostRegsChanged rfl
  | store v => exact hs.of_onlyHostRegsChanged (storeReg_frame _ v s)
  | command _ heff => exact heff.legal (hcmd _)
  | illegal => exact (hcmd _).raise nofun
  | reset => exact .coreReset s

/-- Settles O12: the step is idle, or one event. -/
theorem stepKeepsInvariant : Obligations.StepKeepsInvariant := by
  intro s t hs h
  obtain rfl | ⟨e, rest, _, heff⟩ := step_effect h
  · exact hs
  · exact heff.legal (hs.of_onlyHostRegsChanged rfl)

end Sys2Proof.Machine

/-! ## The port: what reads show -/

namespace Sys2Proof.Machine

/-- ERR stands in STATUS[2:0] (R29). -/
@[simp] theorem statusErr_statusWord (s : State) : statusErr (statusWord s) = s.err := by
  ext i hi
  have : i = 0 ∨ i = 1 ∨ i = 2 := by omega
  rcases this with rfl | rfl | rfl <;> simp [statusErr, statusWord]

/-- OUTN stands in STATUS[4:3] (R29). -/
@[simp] theorem statusOutn_statusWord (s : State) : statusOutn (statusWord s) = s.outn := by
  ext i hi
  have : i = 0 ∨ i = 1 := by omega
  rcases this with rfl | rfl <;> simp [statusOutn, statusWord]

/-- MODE stands in STATUS[6:5] (R29). -/
@[simp] theorem statusMode_statusWord (s : State) : statusMode (statusWord s) = s.mode := by
  ext i hi
  have : i = 0 ∨ i = 1 := by omega
  rcases this with rfl | rfl <;> simp [statusMode, statusWord]

/-- PBV stands in STATUS[7] (R29). -/
@[simp] theorem statusPbv_statusWord (s : State) : statusPbv (statusWord s) = s.pbv := by
  ext i hi
  obtain rfl : i = 0 := by omega
  simp [statusPbv, statusWord]

/-- STATUS[15:8] reads as 0 (R29). -/
theorem hiByte_statusWord (s : State) : hiByte (statusWord s) = 0 := by
  ext i hi
  have : i ∈ List.range 8 := by simpa using hi
  fin_cases this <;> simp [hiByte, statusWord]

/-- The indices from 11 on are the reserved ones (R41). -/
theorem portReg_reserved (a : BitVec 4) (h : 11 ≤ a.toNat) : ∃ j, portReg a = .reserved j := by
  revert h; revert a; decide

/-- A write to a reserved index is ignored (R41). -/
theorem step_write_reserved {a : BitVec 4} (h : 11 ≤ a.toNat) (s : State) (v : Word) (rest : List HostEvent) :
    step { s with pending := .busWrite a v :: rest } = .next { s with pending := rest } := by
  obtain ⟨j, hj⟩ := portReg_reserved a h
  have ha : a ≠ 0 := by rintro rfl; exact absurd h (by decide)
  rw [step_write_of_ne_zero ha, hj, storeReg]

/-- Settles O6: the reserved indices are those of `portReg_reserved`; the others are named. -/
theorem portReadMap : Obligations.PortReadMap := by
  intro s
  refine ⟨rfl, rfl, rfl, rfl, rfl, rfl, rfl, rfl, rfl, rfl, rfl, fun a ha => ⟨?read, ?write⟩⟩
  case read =>
    obtain ⟨j, hj⟩ := portReg_reserved a ha
    rw [hj, readReg]
  case write => exact fun v rest => step_write_reserved ha s v rest

/-- Only a write to CMD and reset change the fields of STATUS (R29). -/
theorem EventEffect.status_eq {e : HostEvent} {s t : State} (h : EventEffect s e t) (hr : e ≠ .reset)
    (hc : ∀ v, e ≠ .busWrite 0 v) : t.err = s.err ∧ t.outn = s.outn ∧ t.mode = s.mode ∧ t.pbv = s.pbv := by
  cases h with
  | read => exact ⟨rfl, rfl, rfl, rfl⟩
  | store v => exact (storeReg_frame _ v s).status
  | command | illegal => exact absurd rfl (hc _)
  | reset => exact absurd rfl hr

/-- Settles O7: the fields of `statusWord`, and the events that leave them alone. -/
theorem statusWordFields : Obligations.StatusWordFields := by
  refine ⟨fun s => ⟨statusErr_statusWord s, statusOutn_statusWord s, statusMode_statusWord s,
    statusPbv_statusWord s, hiByte_statusWord s, rfl⟩, ?write, ?change, rfl⟩
  case write => exact fun s v rest => step_write_of_ne_zero (by decide) s v rest
  case change => exact fun s t e rest h => (eventEffect_of_step h).status_eq

/-- What the host can read back is what every register of the port reads as. -/
theorem visible_eq_iff (s t : State) : visible s = visible t ↔ ∀ r, readReg s r = readReg t r := by
  rw [visible, visible, List.map_inj_left]
  constructor
  · intro h r
    simpa using h (portIndex r).toNat (List.mem_range.2 (portIndex r).isLt)
  · exact fun h a _ => h _

/-- No register of the port reads CBCKEY (R36). -/
theorem readReg_cbckey (s : State) (k : Word) (r : PortReg) : readReg { s with cbckey := k } r = readReg s r := by
  cases r <;> rfl

/-- The reads of STATUS fix its four fields (R29). -/
theorem statusWord_inj {s t : State} (h : statusWord s = statusWord t) :
    s.err = t.err ∧ s.outn = t.outn ∧ s.mode = t.mode ∧ s.pbv = t.pbv :=
  ⟨by simpa using congrArg statusErr h, by simpa using congrArg statusOutn h,
    by simpa using congrArg statusMode h, by simpa using congrArg statusPbv h⟩

/-- The reads of the port and CBCKEY fix every register (R244). -/
theorem registers_eq_of_reads {s t : State} (h : ∀ r, readReg s r = readReg t r) (hk : s.cbckey = t.cbckey) :
    t = { s with cfg := t.cfg, pending := t.pending, replies := t.replies } := by
  have hcmd : s.cmd = t.cmd := h .cmd
  have hdin : s.din = t.din := h .din
  have hdout : s.dout = t.dout := h .dout
  have hkey1 : s.key1 = t.key1 := h .key1
  have hkey2 : s.key2 = t.key2 := h .key2
  have hkey3 : s.key3 = t.key3 := h .key3
  have hiv : s.iv = t.iv := h .iv
  have hchain : s.chain = t.chain := h .chain
  have hkeylen : s.keylen = t.keylen := by
    simpa [readReg] using congrArg (BitVec.setWidth 3) (h .keylen)
  have hpbuf : s.pbuf = t.pbuf := by simpa [readReg] using congrArg loByte (h .pbuf)
  obtain ⟨herr, houtn, hmode, hpbv⟩ := statusWord_inj (h .status)
  rw [hcmd, hdin, hdout, hkey1, hkey2, hkey3, hkeylen, hiv, hchain, hpbuf, hk, herr, houtn, hmode, hpbv]

/-- Settles O60: `visible` is the reads of every register, none of which shows CBCKEY. -/
theorem onlyCbckeyHidden : Obligations.OnlyCbckeyHidden :=
  ⟨fun s k => (visible_eq_iff _ _).2 (readReg_cbckey s k),
    fun s t hv hk => registers_eq_of_reads ((visible_eq_iff s t).1 hv) hk⟩

end Sys2Proof.Machine

/-! ## The port: one transaction after another -/

namespace Sys2Proof.Machine

/-- A decoded word runs its command on the state that holds the word in CMD (R57, R70). -/
theorem step_write_cmd_of_ok {v : Word} {i : Instr} (h : decode v = .ok i) (s : State) (rest : List HostEvent) :
    step { s with pending := .busWrite 0 v :: rest } = exec i { s with pending := rest, cmd := v } :=
  (step_write_cmd s v rest).trans (runCommand_of_ok h _)

/-- With nothing pending the core holds its state (R20, R245). -/
theorem step_idle (s : State) : step { s with pending := [] } = .next { s with pending := [] } := rfl

/-- Settles O4: the step of a decoded word, and the idle step. -/
theorem stepRunsDecodedCommand : Obligations.StepRunsDecodedCommand :=
  ⟨fun s _ _ rest h => step_write_cmd_of_ok h s rest, step_idle⟩

/-- A command answers, because each of its effects is a next state. -/
theorem answersNext_exec (i : Instr) (s : State) : answersNext (exec i s) := by
  obtain ⟨t, ht, _⟩ := exec_effect i s
  exact ⟨t, ht⟩

/-- An event is answered, because each of its effects is a next state (R51, R237). -/
theorem answersNext_handleEvent (e : HostEvent) (s : State) : answersNext (handleEvent e s) := by
  obtain ⟨t, ht, _⟩ := handleEvent_effect e s
  exact ⟨t, ht⟩

/-- A step answers: it is idle, or it handles an event. -/
theorem answersNext_step (s : State) : answersNext (step s) := by
  cases hp : s.pending with
  | nil =>
    have hs : s = { s with pending := [] } := by rw [← hp]
    rw [hs]
    exact ⟨_, step_idle s⟩
  | cons e rest =>
    have hs : s = { s with pending := e :: rest } := by rw [← hp]
    rw [hs, step_cons]
    exact answersNext_handleEvent e _

/-- A run answers, because each of its steps does. -/
theorem answersNext_runSteps (k : Nat) (s : State) : answersNext (runSteps k s) := by
  induction k generalizing s with
  | zero => exact ⟨s, rfl⟩
  | succ k ih =>
    obtain ⟨t, ht⟩ := answersNext_step s
    rw [runSteps_of_next ht]
    exact ih t

/-- Settles O14: a command has an effect, so a step answers, so a run does. -/
theorem stepAlwaysAnswers : Obligations.StepAlwaysAnswers :=
  ⟨answersNext_step, answersNext_exec, answersNext_runSteps⟩

/-- The registers of the port show nothing of the host side. -/
theorem readReg_hostSide (s : State) (p : List HostEvent) (w : List Word) (r : PortReg) :
    readReg { s with pending := p, replies := w } r = readReg s r := by
  cases r <;> rfl

/-- A run over reads answers each with its register as it stood at the start (R58), by induction on the reads: the
first one changes the host side alone. -/
theorem runSteps_reads (s : State) (as : List (BitVec 4)) :
    runSteps as.length { s with pending := as.map .busRead }
      = .next { s with pending := [], replies := s.replies ++ as.map fun a => readReg s (portReg a) } := by
  induction as generalizing s with
  | nil => simp
  | cons a as ih =>
    have hstep := step_read s a (as.map .busRead)
    rw [List.length_cons, List.map_cons, runSteps_of_next hstep]
    have hrest := ih { s with replies := s.replies ++ [readReg s (portReg a)] }
    simpa [readReg_hostSide s s.pending] using hrest

/-- A command stores nothing in CMD, and neither does an illegal word: CMD holds the word written (R28, R57). -/
theorem EventEffect.cmd_eq {v : Word} {s t : State} (h : EventEffect s (.busWrite 0 v) t) : t.cmd = v := by
  cases h with
  | store _ h0 => exact absurd rfl h0
  | command _ heff =>
    obtain ⟨hcmd, _⟩ := heff.frame.host_regs
    exact hcmd
  | illegal => rfl

/-- The step of a write to CMD answers, with the word stored and its command run (R57). -/
theorem step_write_cmd_answers (s : State) (v : Word) (rest : List HostEvent) : ∃ t,
    step { s with pending := .busWrite 0 v :: rest } = .next t ∧ t.cmd = v
      ∧ ∀ i, decode v = .ok i → exec i { s with pending := rest, cmd := v } = .next t := by
  obtain ⟨t, ht, heff⟩ := busWrite_cmd_effect v { s with pending := rest }
  have hstep : step { s with pending := .busWrite 0 v :: rest } = .next t := ht
  exact ⟨t, hstep, heff.cmd_eq, fun i hi => (step_write_cmd_of_ok hi s rest).symm.trans hstep⟩

/-- A read-only or reserved index stores nothing (R41, R42). -/
theorem storeReg_readOnly {a : BitVec 4} (h : a ∈ ([1, 3, 9, 10, 11, 12, 13, 14, 15] : List (BitVec 4))) (v : Word)
    (s : State) : storeReg (portReg a) v s = s := by
  simp only [List.mem_cons, List.not_mem_nil, or_false] at h
  rcases h with rfl | rfl | rfl | rfl | rfl | rfl | rfl | rfl | rfl <;> rfl

/-- A write to a read-only or reserved index does nothing (R41, R42). -/
theorem step_write_readOnly {a : BitVec 4} (h : a ∈ ([1, 3, 9, 10, 11, 12, 13, 14, 15] : List (BitVec 4)))
    (s : State) (v : Word) (rest : List HostEvent) :
    step { s with pending := .busWrite a v :: rest } = .next { s with pending := rest } := by
  have ha : a ≠ 0 := by rintro rfl; exact absurd h (by decide)
  rw [step_write_of_ne_zero ha, storeReg_readOnly h]

/-- Settles O5: reads by induction on their list, and writes by what their index stores. -/
theorem portTransactions : Obligations.PortTransactions := by
  refine ⟨runSteps_reads, fun s v rest => ?stores, step_write_cmd_answers,
    fun s a v rest h => step_write_readOnly h s v rest⟩
  case stores =>
    have hstore := fun {a : BitVec 4} (ha : a ≠ 0) => step_write_of_ne_zero ha s v rest
    exact ⟨hstore (by decide), hstore (by decide), hstore (by decide), hstore (by decide), hstore (by decide),
      hstore (by decide)⟩

end Sys2Proof.Machine

/-! ## The order of transactions: the events still to come have no influence -/

namespace Sys2Proof.Machine

/-- f neither reads nor writes the events still to come: it commutes with replacing them. -/
def IgnoresPending (f : State → State) : Prop :=
  ∀ (s : State) (p : List HostEvent), f { s with pending := p } = { f s with pending := p }

/-- The key-length check ignores the pending events where the command behind it does (R232). -/
theorem IgnoresPending.withKeys {n : BitVec 3} {f : State → State} (hf : IgnoresPending f) :
    IgnoresPending (withKeys n f) := by
  intro s p
  obtain ⟨hk, h⟩ | ⟨hk, h⟩ := withKeys_cases n f s <;> rw [h]
  · exact (withKeys_of_eq (s := { s with pending := p }) hk f).trans (hf s p)
  · exact withKeys_of_ne (s := { s with pending := p }) hk f

/-- The sequence check ignores the pending events where the command behind it does (R196). -/
theorem IgnoresPending.inMode {m : BitVec 2} {f : State → State} (hf : IgnoresPending f) :
    IgnoresPending (inMode m f) := by
  intro s p
  obtain ⟨hm, h⟩ | ⟨hm, h⟩ := inMode_cases m f s <;> rw [h]
  · exact (inMode_of_eq (s := { s with pending := p }) hm f).trans (hf s p)
  · exact inMode_of_ne (s := { s with pending := p }) hm f

/-- Which of its two outcomes CBCEB has depends on PBV (R201). -/
theorem ignoresPending_takeByte : IgnoresPending takeByte := by
  intro s p
  obtain ⟨hp, h⟩ | ⟨hp, h⟩ := takeByte_cases s <;> rw [h]
  · exact if_pos hp
  · exact if_neg (by simp [hp])

/-- Which of its two outcomes CBCEK has depends on PBV (R202). -/
theorem ignoresPending_takeBlock : IgnoresPending takeBlock := by
  intro s p
  obtain ⟨hp, h⟩ | ⟨hp, h⟩ := takeBlock_cases s <;> rw [h]
  · exact if_pos hp
  · exact if_neg hp

/-- Which last Block CBCEF appends depends on the byte buffer (R203). -/
theorem ignoresPending_finish :
    IgnoresPending fun s => closeStream (dropByte (emitBlock (chainEncrypt (lastBlock s) s) s)) :=
  fun _ _ => rfl

/-- Which of its three outcomes CBCDL has depends on the decrypted Block (R211, R212). -/
theorem ignoresPending_unpadResult (p : Word) : IgnoresPending (unpadResult p) := by
  intro s q
  obtain ⟨h1, h⟩ | ⟨h1, h2, h⟩ | ⟨h1, h2, h⟩ := unpadResult_cases p s <;> rw [h]
  · exact if_pos h1
  · exact (if_neg h1).trans (if_pos h2)
  · exact (if_neg h1).trans (if_neg h2)

/-- A write stores in one register (R58). -/
theorem ignoresPending_storeReg (r : PortReg) (v : Word) : IgnoresPending (storeReg r v) := by
  intro s p
  cases r <;> rfl

/-- A read answers with a register of the port, which shows nothing of the host side (R58). -/
theorem ignoresPending_busReadReply (a : BitVec 4) : IgnoresPending (busReadReply a) := by
  intro s p
  rw [busReadReply, readReg_hostSide s p s.replies]
  rfl

/-- Every command is a function of the state that ignores the pending events. -/
theorem exec_ignoresPending (i : Instr) : ∃ f, (∀ s, exec i s = .next (f s)) ∧ IgnoresPending f := by
  cases i with
  | cbcei | cbcdi => exact ⟨_, fun _ => rfl, .withKeys fun _ _ => rfl⟩
  | cbceb => exact ⟨_, fun _ => rfl, .inMode ignoresPending_takeByte⟩
  | cbcek => exact ⟨_, fun _ => rfl, .inMode ignoresPending_takeBlock⟩
  | cbcef => exact ⟨_, fun _ => rfl, .inMode ignoresPending_finish⟩
  | cbcdb => exact ⟨_, fun _ => rfl, .inMode fun _ _ => rfl⟩
  | cbcdl =>
    exact ⟨_, fun _ => rfl, .inMode fun s => ignoresPending_unpadResult (chainDecrypt s) (closeStream (takeChain s))⟩
  | nop | gfmul | subnib | subnibI | subbyte | subbyteI | rotnib | subnibs | subnibsI | shiftrows | mixcol | mixcolI =>
    exact ⟨_, fun _ => rfl, fun _ _ => rfl⟩
  | addkey | keyexp0 | keyexp1 | keyexp2 | enc | dec | denc | ddec | edeenc | ededec | eeeenc | eeedec =>
    exact ⟨_, fun _ => rfl, .withKeys fun _ _ => rfl⟩

/-- A write to CMD is a function of the state that ignores the pending events: the word alone says which command runs
(R57, R70). -/
theorem busWrite_cmd_ignoresPending (v : Word) : ∃ f, (∀ s, busWrite 0 v s = .next (f s)) ∧ IgnoresPending f := by
  cases hd : decode v with
  | ok i =>
    obtain ⟨f, hf, hign⟩ := exec_ignoresPending i
    exact ⟨fun s => f { s with cmd := v }, fun s => (runCommand_of_ok hd _).trans (hf _),
      fun s p => hign { s with cmd := v } p⟩
  | error why =>
    exact ⟨fun s => raise .illegalCmd { s with cmd := v }, fun s => runCommand_of_error hd _, fun _ _ => rfl⟩

/-- Every event is a function of the state that ignores the events after it (R59). -/
theorem handleEvent_ignoresPending (e : HostEvent) :
    ∃ f, (∀ s, handleEvent e s = .next (f s)) ∧ IgnoresPending f := by
  cases e with
  | busRead a => exact ⟨_, fun _ => rfl, ignoresPending_busReadReply a⟩
  | reset => exact ⟨_, fun _ => rfl, fun _ _ => rfl⟩
  | busWrite a v =>
    by_cases ha : a = 0
    · subst ha; exact busWrite_cmd_ignoresPending v
    · exact ⟨_, busWrite_of_ne_zero ha v, ignoresPending_storeReg (portReg a) v⟩

/-- Settles O9: the step is one function of the state and the event, and leaves what is pending after it. -/
theorem transactionsInOrder : Obligations.TransactionsInOrder := by
  intro s t e rest later h
  obtain ⟨f, hf, hign⟩ := handleEvent_ignoresPending e
  have hstep : ∀ p, step { s with pending := e :: p } = .next { f s with pending := p } := fun p => by
    rw [step_cons, hf, hign]
  cases h.symm.trans (hstep rest)
  exact ⟨rfl, hstep later⟩

end Sys2Proof.Machine

/-! ## The encoding: what the decoder answers, and the table of legal words

A word is its four fields (`joinCmd_splitCmd`), and each operation has one row of the table of R72 (`decodeOp_row`).
Which command a word is, and whether it is one, are then read off its row. -/

namespace Sys2Proof.Machine

/-- The word that has the fields c (R71). -/
def joinCmd (c : Cmd16) : Word := c.rsv ++ c.idx ++ c.inv ++ c.op

/-- The four fields are all of the word: no bit of it is dropped (R71). -/
theorem joinCmd_splitCmd (v : Word) : joinCmd (splitCmd v) = v := by
  apply BitVec.eq_of_getLsbD_eq
  intro k hk
  simp only [joinCmd, splitCmd, BitVec.getLsbD_append, BitVec.getLsbD_extractLsb']
  grind

/-- The values of OP that the table of R72 leaves out (R76). -/
def reservedOps : List (BitVec 5) := [0x0C#5, 0x0D#5, 0x0E#5, 0x0F#5, 0x16#5, 0x17#5, 0x1F#5]

/-- The values of OP with which INV may be 1 (R73). -/
def directedOps : List (BitVec 5) := [0x02#5, 0x03#5, 0x05#5, 0x07#5]

/-- IDX has four values, one more than there are round keys (R74). -/
theorem idx_cases (idx : BitVec 2) : idx = 0#2 ∨ idx = 1#2 ∨ idx = 2#2 ∨ idx = 3#2 := by
  revert idx; decide

/-- A word is well formed where none of the five conditions of R76 holds. -/
theorem wellFormed_iff (c : Cmd16) : c.wellFormed = true ↔
    c.rsv = 0x00#8 ∧ c.op ∉ reservedOps ∧ (c.inv = 0#1 ∨ c.op ∈ directedOps) ∧ (c.idx = 0#2 ∨ c.op = 0x09#5)
      ∧ ¬ (c.op = 0x09#5 ∧ c.idx = 3#2) := by
  unfold Cmd16.wellFormed Cmd16.rsvOk Cmd16.opOk Cmd16.invOk Cmd16.idxOk Cmd16.idxInRange reservedOps directedOps
  simp only [Bool.and_eq_true, Bool.or_eq_true, Bool.not_eq_true', ← Bool.not_eq_true, beq_iff_eq,
    List.contains_iff_mem, and_assoc]

/-- A word is ill formed where one of the five conditions of R76 holds. -/
theorem not_wellFormed_iff (c : Cmd16) : ¬ c.wellFormed = true ↔
    c.rsv ≠ 0x00#8 ∨ c.op ∈ reservedOps ∨ (c.inv = 1#1 ∧ c.op ∉ directedOps) ∨ (c.idx ≠ 0#2 ∧ c.op ≠ 0x09#5)
      ∨ (c.op = 0x09#5 ∧ c.idx = 3#2) := by
  have hinv : c.inv = 1#1 ↔ ¬ c.inv = 0#1 := by
    obtain h | h := BitVec.eq_zero_or_eq_one c.inv <;> simp [h]
  rw [wellFormed_iff, hinv]
  tauto

/-! ### The rows of the operation table -/

/-- A command without direction and index decodes where INV and IDX are 0 (R73, R74). -/
theorem decodePlain_eq_ok_iff {i j : Instr} {inv : BitVec 1} {idx : BitVec 2} :
    decodePlain i inv idx = .ok j ↔ inv = 0#1 ∧ idx = 0#2 ∧ i = j := by
  unfold decodePlain
  split_ifs <;> simp_all

/-- A command with a direction decodes where IDX is 0, and INV selects the form (R73, R74). -/
theorem decodeDirected_eq_ok_iff {fwd bwd j : Instr} {inv : BitVec 1} {idx : BitVec 2} :
    decodeDirected fwd bwd inv idx = .ok j ↔ idx = 0#2 ∧ (inv = 0#1 ∧ fwd = j ∨ inv = 1#1 ∧ bwd = j) := by
  unfold decodeDirected
  by_cases hidx : idx = 0#2
  · obtain rfl | rfl := BitVec.eq_zero_or_eq_one inv <;> simp [hidx]
  · simp [hidx]

/-- KEYEXP decodes where INV is 0 and IDX selects one of the three round keys (R73, R74). -/
theorem decodeKeyexp_eq_ok_iff {j : Instr} {inv : BitVec 1} {idx : BitVec 2} :
    decodeKeyexp inv idx = .ok j ↔
      inv = 0#1 ∧ (idx = 0#2 ∧ .keyexp0 = j ∨ idx = 1#2 ∧ .keyexp1 = j ∨ idx = 2#2 ∧ .keyexp2 = j) := by
  unfold decodeKeyexp
  by_cases hinv : inv = 0#1
  · obtain rfl | rfl | rfl | rfl := idx_cases idx <;> simp [hinv]
  · simp [hinv]

/-- What the operation table can answer for OP, INV and IDX (R72): the kind of row OP has, and the words of the row's
commands. -/
inductive DecodeRow (op : BitVec 5) (inv : BitVec 1) (idx : BitVec 2) : Except IllegalCmd Instr → Prop
  /-- An operation without direction and index. -/
  | plain {i : Instr} : joinCmd ⟨0, 0, 0, op⟩ = encode i → op ∉ reservedOps → op ∉ directedOps → op ≠ 0x09#5 →
      DecodeRow op inv idx (decodePlain i inv idx)
  /-- An operation with a direction (R73). -/
  | directed {fwd bwd : Instr} : joinCmd ⟨0, 0, 0, op⟩ = encode fwd → joinCmd ⟨0, 0, 1, op⟩ = encode bwd →
      op ∉ reservedOps → op ∈ directedOps → op ≠ 0x09#5 → DecodeRow op inv idx (decodeDirected fwd bwd inv idx)
  /-- KEYEXP (R74). -/
  | keyexp : op = 0x09#5 → DecodeRow op inv idx (decodeKeyexp inv idx)
  /-- A reserved operation (R76). -/
  | reserved : op ∈ reservedOps → DecodeRow op inv idx (.error .reservedOp)

/-- A bit vector is the numeral of its value. -/
theorem eq_ofNat_of_toNat_eq {w n : Nat} {x : BitVec w} (h : x.toNat = n) : x = BitVec.ofNat w n := by
  rw [← h, BitVec.ofNat_toNat, BitVec.setWidth_eq]

/-- The decoder's table has these rows and no other (R72). -/
theorem decodeOp_row (op : BitVec 5) (inv : BitVec 1) (idx : BitVec 2) :
    DecodeRow op inv idx (decodeOp op inv idx) := by
  unfold decodeOp
  split <;> rename_i hop
  -- The four rows with a direction: 0x02, 0x03, 0x05 and 0x07.
  case h_3 | h_4 | h_6 | h_8 =>
    obtain rfl := eq_ofNat_of_toNat_eq hop
    exact .directed rfl rfl (by decide) (by decide) (by decide)
  -- The row 0x09 of KEYEXP.
  case h_10 => exact .keyexp (eq_ofNat_of_toNat_eq hop)
  -- No row.
  case h_26 =>
    have hlt := op.isLt
    refine .reserved ?_
    simp only [imp_false, reservedOps, List.mem_cons, List.not_mem_nil, or_false, ← BitVec.toNat_inj,
      BitVec.toNat_ofNat] at *
    omega
  all_goals
    obtain rfl := eq_ofNat_of_toNat_eq hop
    exact .plain rfl (by decide) (by decide) (by decide)

section Row

variable {op : BitVec 5} {inv : BitVec 1} {idx : BitVec 2} {r : Except IllegalCmd Instr}

/-- Where the row answers a command, the fields are those of the command's word (R78). -/
theorem DecodeRow.joinCmd_eq {i : Instr} (h : DecodeRow op inv idx r) (hr : r = .ok i) :
    joinCmd ⟨0, idx, inv, op⟩ = encode i := by
  cases h with
  | plain hword =>
    obtain ⟨rfl, rfl, rfl⟩ := decodePlain_eq_ok_iff.1 hr
    exact hword
  | directed hfwd hbwd =>
    obtain ⟨rfl, ⟨rfl, rfl⟩ | ⟨rfl, rfl⟩⟩ := decodeDirected_eq_ok_iff.1 hr
    · exact hfwd
    · exact hbwd
  | keyexp hop =>
    subst hop
    obtain ⟨rfl, ⟨rfl, rfl⟩ | ⟨rfl, rfl⟩ | ⟨rfl, rfl⟩⟩ := decodeKeyexp_eq_ok_iff.1 hr <;> rfl
  | reserved => cases hr

/-- The row answers a command exactly where the fields are well formed (R76). -/
theorem DecodeRow.exists_ok_iff (h : DecodeRow op inv idx r) :
    (∃ i, r = .ok i) ↔ (Cmd16.mk 0 idx inv op).wellFormed = true := by
  rw [wellFormed_iff]
  cases h with
  | plain _ hres hdir hkey => simp [decodePlain_eq_ok_iff, hres, hdir, hkey]
  | directed _ _ hres hdir hkey =>
    obtain rfl | rfl := BitVec.eq_zero_or_eq_one inv <;> simp [decodeDirected_eq_ok_iff, hres, hdir, hkey]
  | keyexp hop =>
    subst hop
    have hres : 0x09#5 ∉ reservedOps := by decide
    have hdir : 0x09#5 ∉ directedOps := by decide
    obtain rfl | rfl | rfl | rfl := idx_cases idx <;> simp [decodeKeyexp_eq_ok_iff, hres, hdir]
  | reserved hop => simp [hop]

end Row

/-! ### Words -/

/-- A word decodes to a command where RSV is 0 and the row of its operation answers the command (R70). -/
theorem decode_eq_ok_iff_row {v : Word} {i : Instr} : decode v = .ok i ↔
    (splitCmd v).rsv = 0 ∧ decodeOp (splitCmd v).op (splitCmd v).inv (splitCmd v).idx = .ok i := by
  unfold decode
  by_cases hrsv : (splitCmd v).rsv = 0x00#8 <;> simp [hrsv]

/-- The word of a command decodes to the command (R78). -/
theorem decode_encode (i : Instr) : decode (encode i) = .ok i := by
  cases i <;> rfl

/-- Only the word of a command decodes to the command (R70). -/
theorem eq_encode_of_decode_eq_ok {v : Word} {i : Instr} (h : decode v = .ok i) : v = encode i := by
  obtain ⟨hrsv, hrow⟩ := decode_eq_ok_iff_row.1 h
  calc v = joinCmd (splitCmd v) := (joinCmd_splitCmd v).symm
    _ = joinCmd ⟨0, (splitCmd v).idx, (splitCmd v).inv, (splitCmd v).op⟩ := by rw [← hrsv]
    _ = encode i := (decodeOp_row _ _ _).joinCmd_eq hrow

/-- Settles O1: the fields are all of the word, and each row of the operation table answers the words of its
commands. -/
theorem decodeInvertsEncode : Obligations.DecodeInvertsEncode :=
  fun _ i => ⟨eq_encode_of_decode_eq_ok, fun h => h ▸ decode_encode i⟩

/-- Settles O3: each word is the one the encoder writes. -/
theorem sampleWordsDecode : Obligations.SampleWordsDecode :=
  ⟨decode_encode .gfmul, decode_encode .mixcolI, decode_encode .keyexp2, decode_encode .edeenc, decode_encode .cbcdl⟩

/-! ### Illegal words -/

/-- The decoder refuses a word exactly where no command is its meaning. -/
theorem exists_decode_error_iff (v : Word) : (∃ why, decode v = .error why) ↔ ¬ ∃ i, decode v = .ok i := by
  cases decode v <;> simp

/-- A word decodes to a command exactly where it is well formed (R76). -/
theorem exists_decode_ok_iff_wellFormed (v : Word) :
    (∃ i, decode v = .ok i) ↔ (splitCmd v).wellFormed = true := by
  simp only [decode_eq_ok_iff_row, exists_and_left, (decodeOp_row _ _ _).exists_ok_iff, wellFormed_iff]
  tauto

/-- The commands, in the order of the table of R78. -/
def allCommands : List Instr :=
  transformCommands ++ singleKeyCommands ++ multiKeyCommands ++ [.cbcei, .cbceb, .cbcek, .cbcef, .cbcdi, .cbcdb, .cbcdl]

/-- No command is left out. -/
theorem mem_allCommands (i : Instr) : i ∈ allCommands := by
  cases i <;> decide

/-- The table of R78 is what the encoder writes for each command. -/
theorem legalWords_eq_map_encode : legalWords = allCommands.map encode := rfl

/-- The words of the table of R78 are those the encoder writes. -/
theorem mem_legalWords_iff (v : Word) : v ∈ legalWords ↔ ∃ i, v = encode i := by
  simp [legalWords_eq_map_encode, mem_allCommands, eq_comm]

/-- A word decodes to a command exactly where the table of R78 lists it (R70). -/
theorem exists_decode_ok_iff_mem_legalWords (v : Word) : (∃ i, decode v = .ok i) ↔ v ∈ legalWords := by
  simp only [decodeInvertsEncode v, mem_legalWords_iff]

/-- No word is listed twice (R78). -/
theorem nodup_legalWords : legalWords.Nodup := by decide

/-- All words but the 31 of the table are illegal (R76). -/
theorem card_illegalWords : (Finset.univ.filter fun v : Word => v ∉ legalWords).card = 65505 := by
  have hcompl : (Finset.univ.filter fun v : Word => v ∉ legalWords) = legalWords.toFinsetᶜ := by ext v; simp
  rw [hcompl, Finset.card_compl, List.toFinset_card_of_nodup nodup_legalWords,
    ← FinEnum.card_eq_fintypeCard, FinEnum.card_bitVec]
  rfl

/-- An illegal word is stored in CMD and raises ILLEGAL_CMD (R231). -/
theorem step_write_illegal {v : Word} {why : IllegalCmd} (h : decode v = .error why) (s : State)
    (rest : List HostEvent) :
    step { s with pending := .busWrite 0 v :: rest }
      = .next { s with pending := rest, cmd := v, err := 4, outn := 0 } :=
  (step_write_cmd s v rest).trans (runCommand_of_error h _)

/-- Settles O2: the rows of the operation table give the five conditions and O1 the table's words, which are counted. -/
theorem illegalCommandWords : Obligations.IllegalCommandWords := by
  refine ⟨fun v => ?conditions, fun v => ?table, ⟨rfl, nodup_legalWords⟩, card_illegalWords, ?step⟩
  case conditions =>
    rw [exists_decode_error_iff, exists_decode_ok_iff_wellFormed]
    exact not_wellFormed_iff (splitCmd v)
  case table => rw [exists_decode_error_iff, exists_decode_ok_iff_mem_legalWords]
  case step => exact fun s v rest ⟨_, h⟩ => step_write_illegal h s rest

end Sys2Proof.Machine

/-! ## GF(16): multiply as a sum over the bits of its second operand

The loop of R100 adds the current a, which is a·x^i reduced, for each set bit i of b (`multiply_eq`). So multiply is
additive in b, and differs from the polynomial product by a multiple of the field polynomial, because each a·x^i
does. -/

namespace Sys2Proof.Machine

/-- The contribution of bit i of b to the sum of R100: the "current a" after i steps, where the bit is set. -/
def multiplyTerm (a b : Nibble) (i : Nat) : Nibble :=
  if b.getLsbD i then (timesX^[i] (a.setWidth 5)).setWidth 4 else 0

/-- One round adds the contribution of its bit to the accumulator (R100). -/
theorem multiplyStep_eq (a b p : Nibble) (i : Nat) :
    multiplyStep b (p, timesX^[i] (a.setWidth 5)) i
      = (p ^^^ multiplyTerm a b i, timesX^[i + 1] (a.setWidth 5)) := by
  rw [Function.iterate_succ_apply']
  unfold multiplyStep multiplyTerm
  by_cases h : b.getLsbD i <;> simp [h]

/-- The loop of R100 is the sum of the contributions of the four bits. -/
theorem multiply_eq (a b : Nibble) :
    multiply a b = multiplyTerm a b 0 ^^^ multiplyTerm a b 1 ^^^ multiplyTerm a b 2 ^^^ multiplyTerm a b 3 := by
  have first : multiplyStep b (0, a.setWidth 5) 0 = (multiplyTerm a b 0, timesX^[1] (a.setWidth 5)) :=
    (multiplyStep_eq a b 0 0).trans (congrArg (·, _) BitVec.zero_xor)
  simp only [multiply, List.foldl_cons, List.foldl_nil, first, multiplyStep_eq, Nat.reduceAdd]

/-- A choice by the exclusive-or of two bits is the sum of the choices by each. -/
theorem ite_xor_zero {w : Nat} (p q : Bool) (x : BitVec w) :
    (if p ^^ q then x else 0) = (if p then x else 0) ^^^ (if q then x else 0) := by
  cases p <;> cases q <;> simp

/-- Each contribution is additive in b. -/
theorem multiplyTerm_xor_right (a b c : Nibble) (i : Nat) :
    multiplyTerm a (b ^^^ c) i = multiplyTerm a b i ^^^ multiplyTerm a c i := by
  rw [multiplyTerm, BitVec.getLsbD_xor, ite_xor_zero]
  rfl

/-- multiply is additive in its second operand. -/
theorem multiply_xor_right (a b c : Nibble) : multiply a (b ^^^ c) = multiply a b ^^^ multiply a c := by
  simp only [multiply_eq, multiplyTerm_xor_right]
  ac_rfl

/-- The multiples of the field polynomial x^4 + x + 1 of degree at most 6 (R100). -/
def FieldMultiple (p : BitVec 7) : Prop := ∃ q : BitVec 3, p = polyProduct 0b0010011#7 (q.setWidth 7)

/-- The polynomial product is additive in its second operand. -/
theorem polyProduct_xor_right (a b c : BitVec 7) :
    polyProduct a (b ^^^ c) = polyProduct a b ^^^ polyProduct a c := by
  simp only [polyProduct, BitVec.getLsbD_xor, ite_xor_zero]
  ac_rfl

/-- 0 is the multiple by 0. -/
theorem fieldMultiple_zero : FieldMultiple 0 := ⟨0, by decide⟩

/-- Multiples of the field polynomial add up to one. -/
theorem FieldMultiple.xor {p p' : BitVec 7} (h : FieldMultiple p) (h' : FieldMultiple p') :
    FieldMultiple (p ^^^ p') := by
  obtain ⟨q, rfl⟩ := h
  obtain ⟨q', rfl⟩ := h'
  exact ⟨q ^^^ q', by rw [BitVec.setWidth_xor, polyProduct_xor_right]⟩

/-- The "current a" after i steps differs from a·x^i by a multiple of the field polynomial: each reduction takes one
off (R100). -/
theorem fieldMultiple_shift_timesX (a : Nibble) (i : Fin 4) : FieldMultiple
    (a.setWidth 7 <<< i.val ^^^ ((timesX^[i.val] (a.setWidth 5)).setWidth 4).setWidth 7) := by
  unfold FieldMultiple
  revert a i; decide

/-- The contribution of one bit to the sum of R100 differs from its part of the polynomial product by a multiple of
the field polynomial. -/
theorem fieldMultiple_term (a b : Nibble) (i : Fin 4) : FieldMultiple
    ((if b.getLsbD i then a.setWidth 7 <<< i.val else 0) ^^^ (multiplyTerm a b i).setWidth 7) := by
  unfold multiplyTerm
  by_cases h : b.getLsbD i
  · rw [if_pos h, if_pos h]
    exact fieldMultiple_shift_timesX a i
  · rw [if_neg h, if_neg h]
    exact fieldMultiple_zero

/-- The polynomial product of two nibbles is the sum of a·x^i over the set bits i of b. -/
theorem polyProduct_setWidth (a : BitVec 7) (b : Nibble) : polyProduct a (b.setWidth 7)
    = (if b.getLsbD 0 then a <<< 0 else 0) ^^^ (if b.getLsbD 1 then a <<< 1 else 0)
      ^^^ (if b.getLsbD 2 then a <<< 2 else 0) ^^^ (if b.getLsbD 3 then a <<< 3 else 0) := by
  simp [polyProduct]

/-- multiply differs from the polynomial product by a multiple of the field polynomial (R100). -/
theorem fieldMultiple_polyProduct_xor_multiply (a b : Nibble) :
    FieldMultiple (polyProduct (a.setWidth 7) (b.setWidth 7) ^^^ (multiply a b).setWidth 7) := by
  have term := fieldMultiple_term a b
  have hsum := (((term 0).xor (term 1)).xor (term 2)).xor (term 3)
  rw [polyProduct_setWidth, multiply_eq]
  simp only [BitVec.setWidth_xor]
  convert hsum using 1
  ac_rfl

/-- Settles O16: the two sums agree bit by bit of b, up to a multiple of the field polynomial. -/
theorem multiplyIsFieldProduct : Obligations.MultiplyIsFieldProduct := by
  intro a b
  obtain ⟨q, hq⟩ := fieldMultiple_polyProduct_xor_multiply a b
  exact ⟨q, by rw [← hq, BitVec.xor_comm, BitVec.xor_assoc, BitVec.xor_self, BitVec.xor_zero]⟩

end Sys2Proof.Machine

/-! ## GF(16): the laws of a field -/

namespace Sys2Proof.Machine

/-- multiply is commutative (R126). -/
theorem multiply_comm (a b : Nibble) : multiply a b = multiply b a := by
  revert a b; decide

/-- Every nonzero nibble has an inverse (R126). -/
theorem exists_multiply_eq_one {a : Nibble} (h : a ≠ 0) : ∃ b, multiply a b = 1 := by
  revert h; revert a; decide

/-- No bit of 0 contributes (R100). -/
@[simp] theorem multiply_zero_right (a : Nibble) : multiply a 0#4 = 0#4 := by
  simp [multiply_eq, multiplyTerm]

@[simp] theorem multiply_zero_left (a : Nibble) : multiply 0#4 a = 0#4 :=
  (multiply_comm 0#4 a).trans (multiply_zero_right a)

/-- Bit 0 is the one bit of 1 that contributes, with a itself (R100). -/
@[simp] theorem multiply_one_right (a : Nibble) : multiply a 1#4 = a := by
  simp [multiply_eq, multiplyTerm]

@[simp] theorem multiply_one_left (a : Nibble) : multiply 1#4 a = a :=
  (multiply_comm 1#4 a).trans (multiply_one_right a)

/-- Row 0 of the mix with the operands of each product exchanged (R109, R126). -/
theorem mixTop_comm (i : Bool) (x y : Nibble) :
    mixTop i x y = multiply x (mixDiagonal i) ^^^ multiply y (mixOffDiagonal i) := by
  rw [mixTop, multiply_comm x, multiply_comm y]

/-- Row 1 of the mix with the operands of each product exchanged (R109, R126). -/
theorem mixBottom_comm (i : Bool) (x y : Nibble) :
    mixBottom i x y = multiply x (mixOffDiagonal i) ^^^ multiply y (mixDiagonal i) := by
  rw [mixBottom, multiply_comm x, multiply_comm y]

/-- Settles O17: the laws of multiply, and commutativity in each row of the mix. -/
theorem multiplyLaws : Obligations.MultiplyLaws := by
  refine ⟨multiply_comm, fun a => ⟨multiply_zero_left a, multiply_zero_right a, multiply_one_left a⟩,
    fun a => exists_multiply_eq_one, by decide, fun l b i => ?mix⟩
  case mix => simp only [mixColumns, mixTop_comm, mixBottom_comm]

end Sys2Proof.Machine

/-! ## shiftRows and mixColumns: the cells of a Block, and the inverses -/

namespace Sys2Proof.Machine

@[simp] theorem s00_pack (l : Layout) (a b c d : Nibble) : s00 l (pack l a b c d) = a := by
  cases l <;> simp [s00, pack]

@[simp] theorem s01_pack (l : Layout) (a b c d : Nibble) : s01 l (pack l a b c d) = b := by
  cases l <;> simp [s01, pack]

@[simp] theorem s10_pack (l : Layout) (a b c d : Nibble) : s10 l (pack l a b c d) = c := by
  cases l <;> simp [s10, pack]

@[simp] theorem s11_pack (l : Layout) (a b c d : Nibble) : s11 l (pack l a b c d) = d := by
  cases l <;> simp [s11, pack]

/-- A Block is its four cells, in either layout (R21). -/
@[simp] theorem pack_cells (l : Layout) (b : Word) : pack l (s00 l b) (s01 l b) (s10 l b) (s11 l b) = b := by
  cases l <;> simp [pack, s00, s01, s10, s11]

/-- shiftRows is its own inverse: the cells of row 1 change places twice (R123). -/
@[simp] theorem shiftRows_shiftRows (l : Layout) (b : Word) : shiftRows l (shiftRows l b) = b := by
  simp [shiftRows]

/-- With equal cells in row 1, shiftRows does nothing (R120). -/
theorem shiftRows_of_eq {l : Layout} {b : Word} (h : s10 l b = s11 l b) : shiftRows l b = b := by
  rw [shiftRows, ← h]
  conv_rhs => rw [← pack_cells l b, ← h]

/-- What both summands contain cancels. -/
theorem xor_xor_xor_cancel_right {w : Nat} (a b c : BitVec w) : a ^^^ b ^^^ (c ^^^ b) = a ^^^ c := by
  calc a ^^^ b ^^^ (c ^^^ b) = a ^^^ c ^^^ (b ^^^ b) := by ac_rfl
    _ = a ^^^ c := by rw [BitVec.xor_self, BitVec.xor_zero]

/-- The product of the mix matrix and the other one has 1 on its diagonal (R109, R124). -/
theorem mix_product_diagonal (i : Bool) (x : Nibble) :
    multiply (mixDiagonal !i) (multiply (mixDiagonal i) x)
      ^^^ multiply (mixOffDiagonal !i) (multiply (mixOffDiagonal i) x) = x := by
  revert i x; decide

/-- The product of the mix matrix and the other one has 0 off its diagonal (R109, R124). -/
theorem mix_product_offDiagonal (i : Bool) (x : Nibble) :
    multiply (mixDiagonal !i) (multiply (mixOffDiagonal i) x)
      = multiply (mixOffDiagonal !i) (multiply (mixDiagonal i) x) := by
  revert i x; decide

/-- Row 1 of the mix is row 0 of the exchanged column, because the matrix is symmetric (R109). -/
theorem mixBottom_eq_mixTop (i : Bool) (x y : Nibble) : mixBottom i x y = mixTop i y x := BitVec.xor_comm _ _

/-- The other mix gives back the upper cell of a mixed column (R124). -/
theorem mixTop_mix (i : Bool) (x y : Nibble) : mixTop (!i) (mixTop i x y) (mixBottom i x y) = x := by
  simp only [mixTop, mixBottom, multiply_xor_right, mix_product_offDiagonal i y]
  rw [xor_xor_xor_cancel_right, mix_product_diagonal]

/-- The other mix gives back the lower cell of a mixed column (R124). -/
theorem mixBottom_mix (i : Bool) (x y : Nibble) : mixBottom (!i) (mixTop i x y) (mixBottom i x y) = y := by
  have hupper := mixTop_mix i y x
  rwa [mixBottom_eq_mixTop i y x, ← mixBottom_eq_mixTop i x y, ← mixBottom_eq_mixTop] at hupper

/-- Each mix undoes the other, in either layout (R124). -/
theorem mixColumns_mixColumns (l : Layout) (b : Word) (i : Bool) :
    mixColumns l (mixColumns l b i) (!i) = b := by
  simp [mixColumns, mixTop_mix, mixBottom_mix]

/-- Settles O19: `shiftRows` undoes itself, and each mix the other. -/
theorem transformInverses : Obligations.TransformInverses :=
  fun l x => ⟨shiftRows_shiftRows l x, mixColumns_mixColumns l x false, mixColumns_mixColumns l x true⟩

end Sys2Proof.Machine

/-! ## The S-box and its inverse -/

namespace Sys2Proof.Machine

/-- No entry of an S-box is repeated, so its table is injective (R102). -/
theorem sboxAt_injective (t : SBox) : Function.Injective (sboxAt t) := by
  intro m n h
  have hentry : t.table.toList[m.toNat]'(by simpa using m.isLt)
      = t.table.toList[n.toNat]'(by simpa using n.isLt) := by
    simpa only [Vector.getElem_toList, sboxAt] using h
  exact BitVec.eq_of_toNat_eq ((List.Nodup.getElem_inj_iff t.nodup).1 hentry)

/-- Every nibble is an entry of an S-box (R102). -/
theorem sboxAt_surjective (t : SBox) : Function.Surjective (sboxAt t) :=
  Finite.surjective_of_injective (sboxAt_injective t)

/-- The list of the sixteen nibbles leaves none out. -/
theorem mem_allNibbles (n : Nibble) : n ∈ allNibbles := by
  revert n; decide

/-- The search for the inverse entry finds n, and no other nibble (R103). -/
@[simp] theorem sboxInvAt_sboxAt (t : SBox) (n : Nibble) : sboxInvAt t (sboxAt t n) = n := by
  have hfound : (allNibbles.find? fun k => sboxAt t k == sboxAt t n).isSome :=
    List.find?_isSome.2 ⟨n, mem_allNibbles n, beq_self_eq_true _⟩
  obtain ⟨k, hk⟩ := Option.isSome_iff_exists.1 hfound
  have hkn : k = n := sboxAt_injective t (by simpa using List.find?_some hk)
  rw [sboxInvAt, hk, hkn, Option.getD_some]

/-- The other way round: every nibble is an entry (R103). -/
@[simp] theorem sboxAt_sboxInvAt (t : SBox) (m : Nibble) : sboxAt t (sboxInvAt t m) = m := by
  obtain ⟨n, rfl⟩ := sboxAt_surjective t m
  rw [sboxInvAt_sboxAt]

/-- Substitution in one direction is undone in the other (R125). -/
@[simp] theorem substituteNibble_substituteNibble (t : SBox) (n : Nibble) (i : Bool) :
    substituteNibble t (substituteNibble t n i) (!i) = n := by
  cases i
  · exact sboxInvAt_sboxAt t n
  · exact sboxAt_sboxInvAt t n

/-- A byte is substituted nibble by nibble (R105, R125). -/
theorem substituteByte_substituteByte (t : SBox) (b : Byte) (i : Bool) :
    substituteByte t (substituteByte t b i) (!i) = b := by
  simp [substituteByte]

/-- A Block is substituted nibble by nibble (R107, R125). -/
theorem substituteNibbles_substituteNibbles (t : SBox) (x : Word) (i : Bool) :
    substituteNibbles t (substituteNibbles t x i) (!i) = x := by
  simp [substituteNibbles]

/-- Settles O18: each direction undoes the other, for a nibble, a byte and a Block. -/
theorem substitutionInverse : Obligations.SubstitutionInverse :=
  ⟨fun t => ⟨sboxInvAt_sboxAt t,
    fun n => substituteNibble_substituteNibble t n false,
    fun b => substituteByte_substituteByte t b false,
    fun x => substituteNibbles_substituteNibbles t x false,
    fun n => substituteNibble_substituteNibble t n true,
    fun b => substituteByte_substituteByte t b true,
    fun x => substituteNibbles_substituteNibbles t x true⟩, by decide⟩

end Sys2Proof.Machine

/-! ## The transform commands: what they read and write -/

namespace Sys2Proof.Machine

/-- f reads no key register, KEYLEN or MODE: it is the same after any of them is replaced. -/
def ReadsNoKeyOrMode (f : State → Word) : Prop :=
  ∀ (s : State) (k1 k2 k3 : Word) (n : BitVec 3) (m : BitVec 2),
    f { s with key1 := k1, key2 := k2, key3 := k3, keylen := n, mode := m } = f s

/-- A transform command is NOP, or writes a result that depends on no key register, KEYLEN or MODE (R110). -/
theorem exec_transform_cases {i : Instr} (h : i ∈ transformCommands) :
    i = .nop ∨ (i ≠ .nop ∧ ∃ f, (∀ s, exec i s = .next (writeResult (f s) s)) ∧ ReadsNoKeyOrMode f) := by
  simp only [transformCommands, List.mem_cons, List.not_mem_nil, or_false] at h
  rcases h with rfl | rfl | rfl | rfl | rfl | rfl | rfl | rfl | rfl | rfl | rfl | rfl
  · exact .inl rfl
  all_goals exact .inr ⟨by decide, _, fun _ => rfl, fun _ _ _ _ _ _ => rfl⟩

/-- Settles O20: NOP completes, and the others write a result that does not depend on keys or MODE. -/
theorem transformCommandFrame : Obligations.TransformCommandFrame := by
  intro i s hi
  obtain rfl | ⟨hne, f, hf, hreads⟩ := exec_transform_cases hi
  · exact ⟨complete s, rfl, rfl, rfl, ⟨rfl, rfl, rfl, rfl, rfl⟩, fun _ => ⟨rfl, rfl⟩, fun h => absurd rfl h,
      fun _ _ _ _ _ => rfl⟩
  · refine ⟨writeResult (f s) s, hf s, rfl, rfl, ⟨rfl, rfl, rfl, rfl, rfl⟩, fun h => absurd h hne, fun _ => rfl,
      fun k1 k2 k3 n m => ?_⟩
    rw [hf, hreads]
    rfl

/-- Settles O21: NOP is `complete`, which writes ERR alone. -/
theorem nopClearsError : Obligations.NopClearsError :=
  ⟨decode_encode .nop, exec_nop, fun s _ houtn => ⟨complete s, exec_nop s, rfl, houtn⟩, rfl⟩

end Sys2Proof.Machine

/-! ## The transform commands: their results -/

namespace Sys2Proof.Machine

/-- The result of a command is DOUT of the state it answers. -/
theorem resultOf_of_exec {i : Instr} {s t : State} (h : exec i s = .next t) : resultOf i s = some t.dout := by
  rw [resultOf, h]

@[simp] theorem resultOf_gfmul (s : State) :
    resultOf .gfmul s = some (zextNibble (multiply (dinFactorA s) (dinFactorB s))) := resultOf_of_exec (exec_gfmul s)

@[simp] theorem resultOf_subnib (s : State) :
    resultOf .subnib s = some (zextNibble (substituteNibble s.cfg.sbox (dinNibble s) false)) :=
  resultOf_of_exec (exec_subnib s)

@[simp] theorem resultOf_subnibI (s : State) :
    resultOf .subnibI s = some (zextNibble (substituteNibble s.cfg.sbox (dinNibble s) true)) :=
  resultOf_of_exec (exec_subnibI s)

@[simp] theorem resultOf_rotnib (s : State) : resultOf .rotnib s = some (zextByte (rotateNibbles (dinByte s))) :=
  resultOf_of_exec (exec_rotnib s)

@[simp] theorem resultOf_shiftrows (s : State) : resultOf .shiftrows s = some (shiftRows s.cfg.layout s.din) :=
  resultOf_of_exec (exec_shiftrows s)

@[simp] theorem resultOf_mixcol (s : State) : resultOf .mixcol s = some (mixColumns s.cfg.layout s.din false) :=
  resultOf_of_exec (exec_mixcol s)

@[simp] theorem resultOf_mixcolI (s : State) : resultOf .mixcolI s = some (mixColumns s.cfg.layout s.din true) :=
  resultOf_of_exec (exec_mixcolI s)

/-- The high nibble of DIN[7:0] is nibble 2 of DIN (R13, R75). -/
@[simp] theorem hiNibble_loByte (b : Word) : hiNibble (loByte b) = nib2 b := by
  ext i hi
  have : i ∈ List.range 4 := by simpa using hi
  fin_cases this <;> simp [hiNibble, loByte, nib2]

/-- The low nibble of DIN[7:0] is nibble 3 of DIN (R13, R75). -/
@[simp] theorem loNibble_loByte (b : Word) : loNibble (loByte b) = nib3 b := by
  ext i hi
  have : i ∈ List.range 4 := by simpa using hi
  fin_cases this <;> simp [loNibble, loByte, nib3]

theorem hiNibble_dinByte (s : State) : hiNibble (dinByte s) = nib2 s.din := hiNibble_loByte s.din

theorem loNibble_dinByte (s : State) : loNibble (dinByte s) = nib3 s.din := loNibble_loByte s.din

/-- GFMUL's first factor is nibble 2 of DIN, the high one of DIN[7:0] (R112). -/
theorem dinFactorA_eq_nib2 (s : State) : dinFactorA s = nib2 s.din := rfl

/-- GFMUL's second factor is nibble 3 of DIN, the low one of DIN[7:0] (R112). -/
theorem dinFactorB_eq_nib3 (s : State) : dinFactorB s = nib3 s.din := rfl

/-- A zero-extended nibble is nibble 3 of a Block (R14). -/
@[simp] theorem nib3_zextNibble (n : Nibble) : nib3 (zextNibble n) = n := by
  ext i hi
  have : i ∈ List.range 4 := by simpa using hi
  fin_cases this <;> simp [nib3, zextNibble]

/-- Above a zero-extended nibble there are zeros (R14). -/
theorem extractLsb'_zextNibble (n : Nibble) : (zextNibble n).extractLsb' 4 12 = 0#12 := by
  ext i hi
  simp [zextNibble]

/-- A zero-extended byte has its two nibbles below two zero nibbles (R14). -/
theorem zextByte_joinNibbles (a b : Nibble) : zextByte (joinNibbles a b) = nib4 0 0 a b := by
  ext i hi
  have : i ∈ List.range 16 := by simpa using hi
  fin_cases this <;> simp [zextByte, joinNibbles, nib4, zextNibble]

/-- Settles O22: the laws of multiply at 0 and 1; the two factors are the nibbles of DIN[7:0]. -/
theorem gfmulResult : Obligations.GfmulResult := by
  refine ⟨decode_encode .gfmul, exec_gfmul, fun s h => ?zero, fun s h => ?one, fun s s' h => ?low, fun s v h => ?high,
    by decide⟩
  case zero => obtain h | h := h <;> simp [dinFactorA, dinFactorB, h, zextNibble]
  case one => simp [dinFactorA, dinFactorB, h, zextNibble]
  case low =>
    have hbyte : dinByte s = dinByte s' := h
    simp only [resultOf_gfmul, dinFactorA_eq_nib2, dinFactorB_eq_nib3, ← hiNibble_dinByte, ← loNibble_dinByte,
      hbyte]
  case high =>
    rw [resultOf_gfmul] at h
    cases h
    exact extractLsb'_zextNibble _

/-- The substitution of DIN[7:0], nibble by nibble (R105). -/
theorem zextByte_substituteByte_dinByte (t : SBox) (s : State) (i : Bool) :
    zextByte (substituteByte t (dinByte s) i)
      = nib4 0 0 (substituteNibble t (nib2 s.din) i) (substituteNibble t (nib3 s.din) i) := by
  rw [substituteByte, zextByte_joinNibbles, hiNibble_dinByte, loNibble_dinByte]

/-- SUBBYTE writes the substitution of both nibbles of DIN[7:0] (R115). -/
theorem exec_subbyte_nibbles (s : State) : exec .subbyte s = .next (writeResult
    (nib4 0 0 (sboxAt s.cfg.sbox (nib2 s.din)) (sboxAt s.cfg.sbox (nib3 s.din))) s) := by
  rw [exec_subbyte, zextByte_substituteByte_dinByte]
  rfl

/-- SUBBYTE.I writes the inverse substitution of both nibbles of DIN[7:0] (R116). -/
theorem exec_subbyteI_nibbles (s : State) : exec .subbyteI s = .next (writeResult
    (nib4 0 0 (sboxInvAt s.cfg.sbox (nib2 s.din)) (sboxInvAt s.cfg.sbox (nib3 s.din))) s) := by
  rw [exec_subbyteI, zextByte_substituteByte_dinByte]
  rfl

/-- SUBNIB.I on the result of SUBNIB gives the nibble back (R114, R125). -/
theorem resultOf_subnibI_subnib {s : State} {v : Word} (h : resultOf .subnib s = some v) :
    resultOf .subnibI { s with din := v } = some (zextNibble (dinNibble s)) := by
  rw [resultOf_subnib] at h
  cases h
  have hdin : ∀ n, dinNibble { s with din := zextNibble n } = n := nib3_zextNibble
  have hsub := substituteNibble_substituteNibble s.cfg.sbox (dinNibble s) false
  rw [resultOf_subnibI, hdin]
  exact congrArg (fun n => some (zextNibble n)) hsub

/-- Settles O23: the commands' results nibble by nibble, and the inverse table for SUBNIB.I after SUBNIB. -/
theorem substitutionCommands : Obligations.SubstitutionCommands :=
  ⟨⟨decode_encode .subnib, decode_encode .subnibI, decode_encode .subbyte, decode_encode .subbyteI,
      decode_encode .subnibs, decode_encode .subnibsI⟩,
    fun s => ⟨exec_subnib s, exec_subnibI s, exec_subbyte_nibbles s, exec_subbyteI_nibbles s, exec_subnibs s,
      exec_subnibsI s⟩,
    fun _ _ h => resultOf_subnibI_subnib h, by decide⟩

/-- ROTNIB writes the nibbles of DIN[7:0] exchanged (R117). -/
theorem exec_rotnib_nibbles (s : State) :
    exec .rotnib s = .next (writeResult (nib4 0 0 (nib3 s.din) (nib2 s.din)) s) := by
  rw [exec_rotnib, rotateNibbles, zextByte_joinNibbles, hiNibble_dinByte, loNibble_dinByte]

/-- A byte with equal nibbles is unchanged (R117). -/
theorem rotateNibbles_of_eq {b : Byte} (h : loNibble b = hiNibble b) : rotateNibbles b = b := by
  conv_rhs => rw [← joinNibbles_nibbles b]
  rw [rotateNibbles, h]

/-- Settles O24: the nibbles of DIN[7:0] are exchanged, which a byte of equal nibbles does not show. -/
theorem rotnibResult : Obligations.RotnibResult := by
  refine ⟨decode_encode .rotnib, exec_rotnib_nibbles, fun s h => ?equal, by decide⟩
  case equal =>
    have hnib : loNibble (dinByte s) = hiNibble (dinByte s) :=
      (loNibble_dinByte s).trans (h.trans (hiNibble_dinByte s).symm)
    rw [resultOf_rotnib, rotateNibbles_of_eq hnib]
    rfl

/-- Settles O25: the cells of each layout, and `shiftRows` as its own inverse. -/
theorem shiftrowsResult : Obligations.ShiftrowsResult := by
  refine ⟨decode_encode .shiftrows, fun s hl => ?row, fun s hl => ?column, fun s v h => ?twice, fun s h => ?equal,
    by decide, by decide⟩
  case row | column =>
    rw [exec_shiftrows, hl]
    rfl
  case twice =>
    rw [resultOf_shiftrows] at h
    cases h
    rw [resultOf_shiftrows, shiftRows_shiftRows]
  case equal => rw [resultOf_shiftrows, shiftRows_of_eq h]

/-- The row (1, 4) of the forward mix (R109). -/
theorem mixTop_forward (x y : Nibble) : mixTop false x y = x ^^^ multiply 4 y :=
  congrArg (· ^^^ multiply 4 y) (multiply_one_left x)

/-- The row (4, 1) of the forward mix (R109). -/
theorem mixBottom_forward (x y : Nibble) : mixBottom false x y = multiply 4 x ^^^ y :=
  congrArg (multiply 4 x ^^^ ·) (multiply_one_left y)

/-- The mixes of the corner Blocks 0x0000 and 0xFFFF, in either layout (R121, R122). -/
theorem mixColumns_corners (l : Layout) : mixColumns l 0x0000 false = 0x0000
    ∧ mixColumns l 0xFFFF false = 0x6666 ∧ mixColumns l 0xFFFF true = 0x3333 := by
  cases l <;> decide

/-- Settles O26: the rows of both matrices on the cells of each layout, and the inverse mix. -/
theorem mixColumnCommands : Obligations.MixColumnCommands := by
  refine ⟨⟨decode_encode .mixcol, decode_encode .mixcolI⟩, fun s hl => ⟨?row, ?rowI⟩, fun s hl => ⟨?column, ?columnI⟩,
    fun s v h => ?inverse, fun c => ?corners, by decide⟩
  case row | column =>
    rw [exec_mixcol, hl]
    simp only [mixColumns, mixTop_forward, mixBottom_forward]
    rfl
  case rowI | columnI =>
    rw [exec_mixcolI, hl]
    rfl
  case inverse =>
    rw [resultOf_mixcol] at h
    cases h
    rw [resultOf_mixcolI]
    exact congrArg some (mixColumns_mixColumns s.cfg.layout s.din false)
  case corners =>
    obtain ⟨hzero, hones, honesI⟩ := mixColumns_corners c.layout
    exact ⟨congrArg some hzero, congrArg some hones, congrArg some honesI⟩

end Sys2Proof.Machine

/-! ## The commands behind a key-length check

Every command that needs keys is one function behind `withKeys`; those of 42 and 43 write a result there. -/

namespace Sys2Proof.Machine

/-- A command that needs n keys does all it does behind the key-length check (R232). -/
theorem exec_of_keysNeeded {i : Instr} {n : BitVec 3} (h : keysNeeded i = some n) :
    ∃ f, ∀ s, exec i s = .next (withKeys n f s) := by
  cases i with
  | addkey | keyexp0 | keyexp1 | keyexp2 | enc | dec | denc | ddec | edeenc | ededec | eeeenc | eeedec | cbcei
  | cbcdi =>
    cases h
    exact ⟨_, fun _ => rfl⟩
  | _ => cases h

/-- With another KEYLEN than it needs, a command raises KEY_LENGTH (R232). -/
theorem exec_of_keylen_ne {i : Instr} {n : BitVec 3} {s : State} (hn : keysNeeded i = some n) (hk : s.keylen ≠ n) :
    exec i s = .next (raise .keyLength s) := by
  obtain ⟨f, hf⟩ := exec_of_keysNeeded hn
  rw [hf, withKeys_of_ne hk]

/-- The command i needs n keys and then writes f as its result. -/
def WritesWithKeys (i : Instr) (n : BitVec 3) (f : State → Word) : Prop :=
  ∀ s, exec i s = .next (withKeys n (fun s => writeResult (f s) s) s)

section
variable {i : Instr} {n : BitVec 3} {f : State → Word} {s : State}

/-- With the number of keys it needs, the command writes its result (R31, R232). -/
theorem WritesWithKeys.exec_eq (h : WritesWithKeys i n f) (hk : s.keylen = n) :
    exec i s = .next (writeResult (f s) s) :=
  (h s).trans (congrArg _ (withKeys_of_eq hk _))

/-- DOUT after such a command. -/
theorem WritesWithKeys.resultOf_eq (h : WritesWithKeys i n f) (hk : s.keylen = n) : resultOf i s = some (f s) :=
  resultOf_of_exec (h.exec_eq hk)

/-- Two states that f does not tell apart have the same result. -/
theorem WritesWithKeys.resultOf_congr {t : State} (h : WritesWithKeys i n f) (ht : t.keylen = n) (hs : s.keylen = n)
    (hf : f t = f s) : resultOf i t = resultOf i s := by
  rw [h.resultOf_eq ht, h.resultOf_eq hs, hf]

end

/-- f reads nothing of the CBC state: it is the same after MODE, PBV, PBUF, CHAIN and CBCKEY are replaced. -/
def ReadsNoStream (f : State → Word) : Prop :=
  ∀ (s : State) (m : BitVec 2) (v : BitVec 1) (b : Byte) (ch k : Word),
    f { s with mode := m, pbv := v, pbuf := b, chain := ch, cbckey := k } = f s

/-- Each command of 42 and 43 writes a result that does not depend on the CBC state (R160, R182). -/
theorem exec_keyCommand {i : Instr} (h : i ∈ singleKeyCommands ++ multiKeyCommands) :
    ∃ n f, keysNeeded i = some n ∧ WritesWithKeys i n f ∧ ReadsNoStream f := by
  simp only [singleKeyCommands, multiKeyCommands, List.cons_append, List.nil_append, List.mem_cons,
    List.not_mem_nil, or_false] at h
  rcases h with rfl | rfl | rfl | rfl | rfl | rfl | rfl | rfl | rfl | rfl | rfl | rfl
  all_goals exact ⟨_, _, rfl, fun _ => rfl, fun _ _ _ _ _ _ => rfl⟩

/-- Settles O37: the key-length check reads KEYLEN alone, and what is behind it writes a result. -/
theorem keyCommandFrame : Obligations.KeyCommandFrame := by
  intro i s hi
  obtain ⟨n, f, hn, hwrites, hreads⟩ := exec_keyCommand hi
  rw [hn]
  by_cases hk : s.keylen = n
  · refine ⟨writeResult (f s) s, hwrites.exec_eq hk, ⟨rfl, rfl, rfl, rfl, rfl⟩, fun _ => ⟨rfl, rfl, rfl⟩,
      fun hne => absurd (congrArg some hk.symm) hne, fun m v b ch k => ?stream⟩
    rw [hwrites.exec_eq (s := { s with mode := m, pbv := v, pbuf := b, chain := ch, cbckey := k }) hk, hreads]
    rfl
  · exact ⟨raise .keyLength s, exec_of_keylen_ne hn hk, ⟨rfl, rfl, rfl, rfl, rfl⟩,
      fun heq => absurd (Option.some.inj heq).symm hk, fun _ => ⟨rfl, rfl, rfl⟩,
      fun _ _ _ _ _ => exec_of_keylen_ne hn hk⟩

end Sys2Proof.Machine

/-! ## The cipher: decrypt undoes encrypt, round by round -/

namespace Sys2Proof.Machine

@[simp] theorem mixColumns_true_false (l : Layout) (b : Word) : mixColumns l (mixColumns l b false) true = b :=
  mixColumns_mixColumns l b false

@[simp] theorem mixColumns_false_true (l : Layout) (b : Word) : mixColumns l (mixColumns l b true) false = b :=
  mixColumns_mixColumns l b true

@[simp] theorem substituteNibbles_true_false (t : SBox) (b : Word) :
    substituteNibbles t (substituteNibbles t b false) true = b := substituteNibbles_substituteNibbles t b false

@[simp] theorem substituteNibbles_false_true (t : SBox) (b : Word) :
    substituteNibbles t (substituteNibbles t b true) false = b := substituteNibbles_substituteNibbles t b true

/-- Round 1 is undone step by step, the last step first (R152, R153). -/
@[simp] theorem unround1_round1 (c : Config) (x : Word) : unround1 c (round1 c x) = x := by
  rw [unround1, round1, mixColumns_true_false, shiftRows_shiftRows, substituteNibbles_true_false]

@[simp] theorem round1_unround1 (c : Config) (x : Word) : round1 c (unround1 c x) = x := by
  rw [round1, unround1, substituteNibbles_false_true, shiftRows_shiftRows, mixColumns_false_true]

/-- Round 2 is undone step by step (R152, R153). -/
@[simp] theorem unround2_round2 (c : Config) (x : Word) : unround2 c (round2 c x) = x := by
  rw [unround2, round2, shiftRows_shiftRows, substituteNibbles_true_false]

@[simp] theorem round2_unround2 (c : Config) (x : Word) : round2 c (unround2 c x) = x := by
  rw [round2, unround2, substituteNibbles_false_true, shiftRows_shiftRows]

/-- Each key addition and each round of `encrypt` is undone in turn (R154). -/
@[simp] theorem decrypt_encrypt (c : Config) (p k : Word) : decrypt c (encrypt c p k) k = p := by
  simp only [decrypt, encrypt, xor_cancel_right, unround2_round2, unround1_round1]

/-- Each key addition and each round of `decrypt` is undone in turn (R154). -/
@[simp] theorem encrypt_decrypt (c : Config) (x k : Word) : encrypt c (decrypt c x k) k = x := by
  simp only [decrypt, encrypt, xor_cancel_right, round1_unround1, round2_unround2]

/-- Settles O30: each of the two is a two-sided inverse of the other. -/
theorem encryptDecryptInverse : Obligations.EncryptDecryptInverse := by
  intro c k
  have hdec : ∀ p, decrypt c (encrypt c p k) k = p := fun p => decrypt_encrypt c p k
  have henc : ∀ x, encrypt c (decrypt c x k) k = x := fun x => encrypt_decrypt c x k
  exact ⟨hdec, henc, Function.bijective_iff_has_inverse.2 ⟨fun x => decrypt c x k, hdec, henc⟩,
    Function.bijective_iff_has_inverse.2 ⟨fun p => encrypt c p k, henc, hdec⟩⟩

end Sys2Proof.Machine

/-! ## The single-key commands: their results -/

namespace Sys2Proof.Machine

section
variable {s : State} (hk : s.keylen = 1)
include hk

theorem resultOf_addkey : resultOf .addkey s = some (s.din ^^^ s.key1) := WritesWithKeys.resultOf_eq exec_addkey hk

theorem resultOf_keyexp0 : resultOf .keyexp0 s = some (expand s.cfg.sbox s.key1).rk0 :=
  WritesWithKeys.resultOf_eq exec_keyexp0 hk

theorem resultOf_keyexp1 : resultOf .keyexp1 s = some (expand s.cfg.sbox s.key1).rk1 :=
  WritesWithKeys.resultOf_eq exec_keyexp1 hk

theorem resultOf_keyexp2 : resultOf .keyexp2 s = some (expand s.cfg.sbox s.key1).rk2 :=
  WritesWithKeys.resultOf_eq exec_keyexp2 hk

theorem resultOf_enc : resultOf .enc s = some (encrypt s.cfg s.din s.key1) :=
  WritesWithKeys.resultOf_eq exec_enc hk

theorem resultOf_dec : resultOf .dec s = some (decrypt s.cfg s.din s.key1) :=
  WritesWithKeys.resultOf_eq exec_dec hk

/-- ADDKEY with the same key gives the first operand back (R155). -/
theorem resultOf_addkey_addkey {x k v : Word} (h : resultOf .addkey { s with din := x, key1 := k } = some v) :
    resultOf .addkey { s with din := v, key1 := k } = some x := by
  cases h.symm.trans (resultOf_addkey hk)
  exact Eq.trans (resultOf_addkey hk) (congrArg some (xor_cancel_right x k))

/-- KEYEXP does not read DIN (R156). -/
theorem resultOf_keyexp_din {i : Instr} (hi : i ∈ [Instr.keyexp0, .keyexp1, .keyexp2]) (d : Word) :
    resultOf i { s with din := d } = resultOf i s := by
  simp only [List.mem_cons, List.not_mem_nil, or_false] at hi
  obtain rfl | rfl | rfl := hi
  · exact WritesWithKeys.resultOf_congr exec_keyexp0 hk hk rfl
  · exact WritesWithKeys.resultOf_congr exec_keyexp1 hk hk rfl
  · exact WritesWithKeys.resultOf_congr exec_keyexp2 hk hk rfl

/-- DEC after ENC with the same KEY1 restores DIN (R158). -/
theorem resultOf_dec_enc {v : Word} (h : resultOf .enc s = some v) :
    resultOf .dec { s with din := v } = some s.din := by
  cases h.symm.trans (resultOf_enc hk)
  exact Eq.trans (resultOf_dec hk) (congrArg some (decrypt_encrypt s.cfg s.din s.key1))

end

/-- Settles O27: ADDKEY is an exclusive or, behind the key-length check. -/
theorem addkeyResult : Obligations.AddkeyResult := by
  refine ⟨decode_encode .addkey, fun s hk => WritesWithKeys.exec_eq exec_addkey hk,
    fun s hk => exec_of_keylen_ne rfl hk, fun s v hk h => resultOf_addkey_addkey hk h, fun s hk h => ?equal, by decide⟩
  case equal =>
    rw [resultOf_addkey hk, h, BitVec.xor_self]
    rfl

/-- KEYEXP needs one key, whichever round key it writes (R156). -/
theorem keysNeeded_keyexp : ∀ i ∈ [Instr.keyexp0, .keyexp1, .keyexp2], keysNeeded i = some 1 := by decide

/-- Settles O28: the round keys are the schedule's, by definition, and KEYEXP writes them. -/
theorem keyexpReadsRoundKeys : Obligations.KeyexpReadsRoundKeys :=
  ⟨⟨decode_encode .keyexp0, decode_encode .keyexp1, decode_encode .keyexp2, .indexOutOfRange, rfl⟩,
    fun _ hk => ⟨WritesWithKeys.exec_eq exec_keyexp0 hk, WritesWithKeys.exec_eq exec_keyexp1 hk,
      WritesWithKeys.exec_eq exec_keyexp2 hk, rfl⟩,
    fun i _ hi hk => exec_of_keylen_ne (keysNeeded_keyexp i hi) hk,
    fun _ _ d hi hk => resultOf_keyexp_din hk hi d, ⟨rfl, rfl⟩, by decide⟩

/-- Settles O29: ENC and DEC write the cipher, whose steps are those of the rules by definition. -/
theorem encryptDecryptCommands : Obligations.EncryptDecryptCommands :=
  ⟨⟨decode_encode .enc, decode_encode .dec⟩,
    fun _ hk => ⟨WritesWithKeys.exec_eq exec_enc hk, WritesWithKeys.exec_eq exec_dec hk⟩,
    fun _ hk => ⟨exec_of_keylen_ne rfl hk, exec_of_keylen_ne rfl hk⟩,
    fun _ _ _ => ⟨rfl, rfl, BitVec.xor_self⟩, fun _ _ hk h => resultOf_dec_enc hk h, by decide⟩

end Sys2Proof.Machine

/-! ## The cipher from the single-step commands -/

namespace Sys2Proof.Machine

@[simp] theorem resultOf_subnibs (s : State) :
    resultOf .subnibs s = some (substituteNibbles s.cfg.sbox s.din false) := resultOf_of_exec (exec_subnibs s)

@[simp] theorem resultOf_subnibsI (s : State) :
    resultOf .subnibsI s = some (substituteNibbles s.cfg.sbox s.din true) := resultOf_of_exec (exec_subnibsI s)

/-- SUBNIBS.I on the result of SUBNIBS gives its operand back (R119, R125). -/
theorem resultOf_subnibsI_subnibs {s : State} {x v : Word} (h : resultOf .subnibs { s with din := x } = some v) :
    resultOf .subnibsI { s with din := v } = some x := by
  cases h.symm.trans (resultOf_subnibs _)
  rw [resultOf_subnibsI, substituteNibbles_true_false]

/-- SHIFTROWS on its own result gives its operand back (R120, R123). -/
theorem resultOf_shiftrows_shiftrows {s : State} {x v : Word}
    (h : resultOf .shiftrows { s with din := x } = some v) : resultOf .shiftrows { s with din := v } = some x := by
  cases h.symm.trans (resultOf_shiftrows _)
  rw [resultOf_shiftrows, shiftRows_shiftRows]

/-- MIXCOL.I on the result of MIXCOL gives its operand back (R122, R124). -/
theorem resultOf_mixcolI_mixcol {s : State} {x v : Word} (h : resultOf .mixcol { s with din := x } = some v) :
    resultOf .mixcolI { s with din := v } = some x := by
  cases h.symm.trans (resultOf_mixcol _)
  rw [resultOf_mixcolI, mixColumns_true_false]

/-- Settles O31: the steps of ENC are the commands' results one after the other, and DEC undoes each by its inverse
command, the last one first. -/
theorem cipherFromSingleStepCommands : Obligations.CipherFromSingleStepCommands := by
  intro s hk
  have add : ∀ x k, resultOf .addkey { s with din := x, key1 := k } = some (x ^^^ k) := fun _ _ => resultOf_addkey hk
  have sub : ∀ x, resultOf .subnibs { s with din := x } = some (substituteNibbles s.cfg.sbox x false) :=
    fun _ => resultOf_subnibs _
  have shift : ∀ x, resultOf .shiftrows { s with din := x } = some (shiftRows s.cfg.layout x) :=
    fun _ => resultOf_shiftrows _
  have mix : ∀ x, resultOf .mixcol { s with din := x } = some (mixColumns s.cfg.layout x false) :=
    fun _ => resultOf_mixcol _
  have unadd : ∀ x k, resultOf .addkey { s with din := x ^^^ k, key1 := k } = some x :=
    fun x k => resultOf_addkey_addkey hk (add x k)
  refine ⟨_, _, _, _, _, _, _, _, _, _, _, ⟨resultOf_keyexp0 hk, resultOf_keyexp1 hk, resultOf_keyexp2 hk⟩,
    ⟨add s.din _, sub _, shift _, mix _, add _ _, sub _, shift _, add _ _, resultOf_enc hk⟩, ?undone⟩
  case undone =>
    exact ⟨unadd _ _, resultOf_shiftrows_shiftrows (shift _), resultOf_subnibsI_subnibs (sub _), unadd _ _,
      resultOf_mixcolI_mixcol (mix _), resultOf_shiftrows_shiftrows (shift _), resultOf_subnibsI_subnibs (sub _),
      unadd _ _, resultOf_dec_enc hk (resultOf_enc hk)⟩

end Sys2Proof.Machine

/-! ## Multi-encryption: round trips and identities -/

namespace Sys2Proof.Machine

section
variable (c : Config) (p x k k1 k2 k3 : Word)

/-- The layer of k2 is undone first, then that of k1 (R170, R173). -/
@[simp] theorem doubleDecrypt_doubleEncrypt : doubleDecrypt c (doubleEncrypt c p k1 k2) k1 k2 = p := by
  rw [doubleDecrypt, doubleEncrypt, decrypt_encrypt, decrypt_encrypt]

/-- The outer layers are encryptions and the middle one a decryption, so that one is undone by `encrypt`
(R171, R173). -/
@[simp] theorem edeDecrypt_edeEncrypt : edeDecrypt c (edeEncrypt c p k1 k2) k1 k2 = p := by
  rw [edeDecrypt, edeEncrypt, decrypt_encrypt, encrypt_decrypt, decrypt_encrypt]

/-- The layers of k3, k2 and k1 are undone in that order (R172, R173). -/
@[simp] theorem eeeDecrypt_eeeEncrypt : eeeDecrypt c (eeeEncrypt c p k1 k2 k3) k1 k2 k3 = p := by
  rw [eeeDecrypt, eeeEncrypt, decrypt_encrypt, decrypt_encrypt, decrypt_encrypt]

/-- With one key the first two layers of EDE cancel (R181). -/
theorem edeEncrypt_same_key : edeEncrypt c p k k = encrypt c p k := by
  rw [edeEncrypt, decrypt_encrypt]

theorem edeDecrypt_same_key : edeDecrypt c x k k = decrypt c x k := by
  rw [edeDecrypt, encrypt_decrypt]

/-- The middle value of Double, from the ciphertext's end (R181). -/
theorem decrypt_doubleEncrypt : decrypt c (doubleEncrypt c p k1 k2) k2 = encrypt c p k1 := by
  rw [doubleEncrypt, decrypt_encrypt]

/-- EEE is Double and then the layer of k3 (R181). -/
theorem eeeEncrypt_eq_encrypt_doubleEncrypt :
    eeeEncrypt c p k1 k2 k3 = encrypt c (doubleEncrypt c p k1 k2) k3 := rfl

end

/-! The constructions on given Blocks, layer by layer: each middle value is named, so that no example of a rule
evaluates more than one encryption at a time. -/

section
variable {c : Config} {p m m2 x k1 k2 k3 : Word}

theorem doubleEncrypt_eq_of_layers (h1 : encrypt c p k1 = m) (h2 : encrypt c m k2 = x) :
    doubleEncrypt c p k1 k2 = x := by
  rw [doubleEncrypt, h1, h2]

theorem edeEncrypt_eq_of_layers (h1 : encrypt c p k1 = m) (h2 : decrypt c m k2 = m2) (h3 : encrypt c m2 k1 = x) :
    edeEncrypt c p k1 k2 = x := by
  rw [edeEncrypt, h1, h2, h3]

theorem eeeEncrypt_eq_of_layers (h1 : encrypt c p k1 = m) (h2 : encrypt c m k2 = m2) (h3 : encrypt c m2 k3 = x) :
    eeeEncrypt c p k1 k2 k3 = x := by
  rw [eeeEncrypt, h1, h2, h3]

end

/-- Settles O35: each construction is undone layer by layer, the last one first. -/
theorem multiEncryptionRoundTrip : Obligations.MultiEncryptionRoundTrip :=
  fun c p k1 k2 k3 => ⟨doubleDecrypt_doubleEncrypt c p k1 k2, edeDecrypt_edeEncrypt c p k1 k2,
    eeeDecrypt_eeeEncrypt c p k1 k2 k3⟩

/-- Settles O36: adjacent layers of the same key and opposite directions cancel. -/
theorem multiEncryptionIdentities : Obligations.MultiEncryptionIdentities :=
  fun c p x k k1 k2 k3 => ⟨edeEncrypt_same_key c p k, edeDecrypt_same_key c x k,
    (decrypt_doubleEncrypt c p k1 k2).symm, eeeEncrypt_eq_encrypt_doubleEncrypt c p k1 k2 k3⟩

end Sys2Proof.Machine

/-! ## The multi-key commands: their results -/

namespace Sys2Proof.Machine

section
variable {i j : Instr} {n : BitVec 3} {f g : State → Word} {s t : State}

/-- With another KEYLEN than it needs, the command leaves DOUT as it is (R232). -/
theorem WritesWithKeys.resultOf_of_ne (h : WritesWithKeys i n f) (hk : s.keylen ≠ n) : resultOf i s = some s.dout :=
  resultOf_of_exec (t := raise .keyLength s) (by rw [h s, withKeys_of_ne hk])

/-- Whatever KEYLEN is, the command's result depends on KEYLEN, DOUT and what f reads. -/
theorem WritesWithKeys.resultOf_congr_of_keylen_eq (h : WritesWithKeys i n f) (hkeylen : t.keylen = s.keylen)
    (hdout : t.dout = s.dout) (hf : f t = f s) : resultOf i t = resultOf i s := by
  by_cases hk : s.keylen = n
  · exact h.resultOf_congr (hkeylen.trans hk) hk hf
  · rw [h.resultOf_of_ne hk, h.resultOf_of_ne (hkeylen ▸ hk), hdout]

/-- Where g undoes f, the command that writes g gives back the DIN of the command that writes f. -/
theorem WritesWithKeys.resultOf_undo (hi : WritesWithKeys i n f) (hj : WritesWithKeys j n g) (hk : s.keylen = n)
    (hundo : g { s with din := f s } = s.din) {v : Word} (h : resultOf i s = some v) :
    resultOf j { s with din := v } = some s.din := by
  cases h.symm.trans (hi.resultOf_eq hk)
  rw [hj.resultOf_eq (s := { s with din := f s }) hk, hundo]

end

/-- EDEENC with KEY1 = KEY2 gives what ENC gives with KEYLEN = 1 (R177, R181). -/
theorem resultOf_edeenc_same_key {s : State} (hk : s.keylen = 2) (heq : s.key1 = s.key2) :
    resultOf .edeenc s = resultOf .enc { s with keylen := 1 } := by
  rw [WritesWithKeys.resultOf_eq exec_edeenc hk, ← heq, edeEncrypt_same_key]
  exact (resultOf_enc (s := { s with keylen := 1 }) rfl).symm

/-- Settles O32: DENC and DDEC write the double encryption and its inverse behind the key-length check. -/
theorem doubleCommands : Obligations.DoubleCommands := by
  have hrow : doubleEncrypt defaultConfig 0x6B6B 0xA73B 0xC0C3 = 0x43AE :=
    doubleEncrypt_eq_of_layers (m := 0x0BEE) (by decide) (by decide)
  have hcolumn : doubleEncrypt ⟨.columnMajor, defaultSBox⟩ 0x6B6B 0xA73B 0xC0C3 = 0xC158 :=
    doubleEncrypt_eq_of_layers (m := 0x01D8) (by decide) (by decide)
  have hswapped : doubleEncrypt defaultConfig 0x6B6B 0xC0C3 0xA73B = 0xC57F :=
    doubleEncrypt_eq_of_layers (m := 0x6039) (by decide) (by decide)
  have hback : doubleDecrypt defaultConfig 0x43AE 0xA73B 0xC0C3 = 0x6B6B := by
    rw [← hrow, doubleDecrypt_doubleEncrypt]
  refine ⟨⟨decode_encode .denc, decode_encode .ddec⟩, fun s hk => ?results,
    fun s hk => ⟨exec_of_keylen_ne rfl hk, exec_of_keylen_ne rfl hk⟩, fun s k => ?key3, fun s v hk h => ?inverse,
    ?order, ⟨hrow, hcolumn, hback⟩, by decide⟩
  case results => exact ⟨WritesWithKeys.exec_eq exec_denc hk, WritesWithKeys.exec_eq exec_ddec hk⟩
  case key3 => exact WritesWithKeys.resultOf_congr_of_keylen_eq exec_denc rfl rfl rfl
  case inverse => exact WritesWithKeys.resultOf_undo exec_denc exec_ddec hk (doubleDecrypt_doubleEncrypt ..) h
  case order =>
    rw [hswapped, hrow]
    decide

/-- Settles O33: EDEENC and EDEDEC write the two-key triple encryption and its inverse behind the key-length check. -/
theorem edeCommands : Obligations.EdeCommands := by
  have hrow : edeEncrypt defaultConfig 0x6B6B 0xA73B 0xC0C3 = 0x1271 :=
    edeEncrypt_eq_of_layers (m := 0x0BEE) (m2 := 0x7DEC) (by decide) (by decide) (by decide)
  have hcolumn : edeEncrypt ⟨.columnMajor, defaultSBox⟩ 0x6B6B 0xA73B 0xC0C3 = 0x6CCB :=
    edeEncrypt_eq_of_layers (m := 0x01D8) (m2 := 0xE905) (by decide) (by decide) (by decide)
  have hback : edeDecrypt defaultConfig 0x1271 0xA73B 0xC0C3 = 0x6B6B := by rw [← hrow, edeDecrypt_edeEncrypt]
  refine ⟨⟨decode_encode .edeenc, decode_encode .ededec⟩, fun s hk => ?results,
    fun s hk => ⟨exec_of_keylen_ne rfl hk, exec_of_keylen_ne rfl hk⟩, fun s k => ?key3,
    fun s hk heq => resultOf_edeenc_same_key hk heq, fun s v hk h => ?inverse, ⟨hrow, hcolumn, hback⟩, by decide⟩
  case results => exact ⟨WritesWithKeys.exec_eq exec_edeenc hk, WritesWithKeys.exec_eq exec_ededec hk⟩
  case key3 => exact WritesWithKeys.resultOf_congr_of_keylen_eq exec_edeenc rfl rfl rfl
  case inverse => exact WritesWithKeys.resultOf_undo exec_edeenc exec_ededec hk (edeDecrypt_edeEncrypt ..) h

/-- Settles O34: EEEENC and EEEDEC write the three-key triple encryption and its inverse behind the key-length
check. -/
theorem eeeCommands : Obligations.EeeCommands := by
  have hrow : eeeEncrypt defaultConfig 0x6B6B 0xA73B 0xC0C3 0x3C3C = 0xBCB3 :=
    eeeEncrypt_eq_of_layers (m := 0x0BEE) (m2 := 0x43AE) (by decide) (by decide) (by decide)
  have hcolumn : eeeEncrypt ⟨.columnMajor, defaultSBox⟩ 0x6B6B 0xA73B 0xC0C3 0x3C3C = 0x3170 :=
    eeeEncrypt_eq_of_layers (m := 0x01D8) (m2 := 0xC158) (by decide) (by decide) (by decide)
  have hback : eeeDecrypt defaultConfig 0xBCB3 0xA73B 0xC0C3 0x3C3C = 0x6B6B := by rw [← hrow, eeeDecrypt_eeeEncrypt]
  refine ⟨⟨decode_encode .eeeenc, decode_encode .eeedec⟩, fun s hk => ?results,
    fun s hk => ⟨exec_of_keylen_ne rfl hk, exec_of_keylen_ne rfl hk⟩, fun s v hk h => ?inverse,
    ⟨hrow, hcolumn, hback⟩, by decide⟩
  case results => exact ⟨WritesWithKeys.exec_eq exec_eeeenc hk, WritesWithKeys.exec_eq exec_eeedec hk⟩
  case inverse => exact WritesWithKeys.resultOf_undo exec_eeeenc exec_eeedec hk (eeeDecrypt_eeeEncrypt ..) h

end Sys2Proof.Machine

/-! ## CBC over Blocks: the chain value of a Block is the ciphertext Block before it

Both directions of R190 are a `zipWith` of the input Blocks with their chain values, which for decryption are the
ciphertext Blocks shifted by one. Every law that speaks of a Block by its index is read off that form. -/

namespace Sys2Proof.Machine

section
variable (c : Config) (k : Word)

@[simp] theorem length_cbcEncryptBlocks (prev : Word) (ps : List Word) :
    (cbcEncryptBlocks c k prev ps).length = ps.length := by
  induction ps generalizing prev with
  | nil => rfl
  | cons p ps ih => simp [cbcEncryptBlocks, ih]

/-- Each plaintext Block is chained with the ciphertext Block before it (R190). -/
theorem cbcEncryptBlocks_eq_zipWith (prev : Word) (ps : List Word) :
    cbcEncryptBlocks c k prev ps
      = List.zipWith (fun p q => encrypt c (p ^^^ q) k) ps (prev :: cbcEncryptBlocks c k prev ps) := by
  induction ps generalizing prev with
  | nil => rfl
  | cons p ps ih => rw [cbcEncryptBlocks, List.zipWith_cons_cons, ← ih]

/-- Each ciphertext Block is chained with the ciphertext Block before it (R190). -/
theorem cbcDecryptBlocks_eq_zipWith (prev : Word) (xs : List Word) :
    cbcDecryptBlocks c k prev xs = List.zipWith (fun x q => decrypt c x k ^^^ q) xs (prev :: xs) := by
  induction xs generalizing prev with
  | nil => rfl
  | cons x xs ih => rw [cbcDecryptBlocks, List.zipWith_cons_cons, ih]

@[simp] theorem length_cbcDecryptBlocks (prev : Word) (xs : List Word) :
    (cbcDecryptBlocks c k prev xs).length = xs.length := by
  simp [cbcDecryptBlocks_eq_zipWith]

/-- Decryption undoes encryption, Block by Block (R154, R207). -/
@[simp] theorem cbcDecryptBlocks_cbcEncryptBlocks (prev : Word) (ps : List Word) :
    cbcDecryptBlocks c k prev (cbcEncryptBlocks c k prev ps) = ps := by
  induction ps generalizing prev with
  | nil => rfl
  | cons p ps ih => rw [cbcEncryptBlocks, cbcDecryptBlocks, ih, decrypt_encrypt, xor_cancel_right]

end

/-- Settles O51: the chain value of Block i is entry i of the ciphertext with IV in front. -/
theorem chainingEquations : Obligations.ChainingEquations := by
  intro c k iv xs i x hx
  have hi : i < xs.length := (List.getElem?_eq_some_iff.1 hx).1
  have entry : ∀ ys : List Word, ys.length = xs.length → ∃ prev, (iv :: ys)[i]? = some prev := fun ys hys =>
    ⟨_, List.getElem?_eq_getElem (by rw [List.length_cons, hys]; omega)⟩
  refine ⟨?encrypt, ?decrypt, length_cbcEncryptBlocks .., length_cbcDecryptBlocks ..⟩
  case encrypt =>
    obtain ⟨prev, hprev⟩ := entry _ (length_cbcEncryptBlocks c k iv xs)
    refine ⟨prev, hprev, ?_⟩
    rw [cbcEncryptBlocks_eq_zipWith, List.getElem?_zipWith, hx, hprev]
  case decrypt =>
    obtain ⟨prev, hprev⟩ := entry xs rfl
    refine ⟨prev, hprev, ?_⟩
    rw [cbcDecryptBlocks_eq_zipWith, List.getElem?_zipWith, hx, hprev]

/-! ### Error propagation -/

/-- Different ciphertext Blocks decrypt to different Blocks under one key (R154). -/
theorem decrypt_injective (c : Config) (k : Word) : Function.Injective fun x => decrypt c x k :=
  Function.LeftInverse.injective (g := fun p => encrypt c p k) fun x => encrypt_decrypt c x k

/-- Different Blocks encrypt to different Blocks under one key (R154). -/
theorem encrypt_injective (c : Config) (k : Word) : Function.Injective fun p => encrypt c p k :=
  Function.LeftInverse.injective (g := fun x => decrypt c x k) fun p => decrypt_encrypt c p k

/-- A decrypted Block depends on its ciphertext Block and the one before it alone (R190). -/
theorem getElem?_cbcDecryptBlocks_congr (c : Config) (k iv : Word) {xs ys : List Word} {j : Nat}
    (hown : ys[j]? = xs[j]?) (hprev : (iv :: ys)[j]? = (iv :: xs)[j]?) :
    (cbcDecryptBlocks c k iv ys)[j]? = (cbcDecryptBlocks c k iv xs)[j]? := by
  simp only [cbcDecryptBlocks_eq_zipWith, List.getElem?_zipWith, hown, hprev]

/-- The Block after Block i, in terms of it (R190). -/
theorem getElem?_cbcDecryptBlocks_succ (c : Config) (k iv : Word) {xs : List Word} {i : Nat} {x : Word}
    (hx : xs[i]? = some x) :
    (cbcDecryptBlocks c k iv xs)[i + 1]? = xs[i + 1]?.map fun y => decrypt c y k ^^^ x := by
  rw [cbcDecryptBlocks_eq_zipWith, List.getElem?_zipWith, List.getElem?_cons_succ, hx]
  cases xs[i + 1]? <;> rfl

/-- Replacing Block i replaces no chain value but that of Block i + 1. -/
theorem getElem?_cons_set_of_ne {iv x' : Word} {xs : List Word} {i j : Nat} (h : j ≠ i + 1) :
    (iv :: xs.set i x')[j]? = (iv :: xs)[j]? := by
  rw [← List.set_cons_succ, List.getElem?_set_ne h.symm]

/-- Settles O58: Block i reaches the plaintext as its own ciphertext and as the chain value of the next one, and
nowhere else. -/
theorem cbcErrorPropagation : Obligations.CbcErrorPropagation := by
  intro c k iv xs i x x' hx hne
  have elsewhere : ∀ j, j ≠ i → j ≠ i + 1 →
      (cbcDecryptBlocks c k iv (xs.set i x'))[j]? = (cbcDecryptBlocks c k iv xs)[j]? := fun j hi hi' =>
    getElem?_cbcDecryptBlocks_congr c k iv (List.getElem?_set_ne hi.symm) (getElem?_cons_set_of_ne hi')
  have hx' : (xs.set i x')[i]? = some x' := List.getElem?_set_self (List.getElem?_eq_some_iff.1 hx).1
  refine ⟨fun j hj => elsewhere j (by omega) (by omega), ?own, ?next, fun j hj => elsewhere j (by omega) (by omega)⟩
  case own =>
    obtain ⟨_, ⟨q, hq, hp⟩, _⟩ := chainingEquations c k iv xs i x hx
    obtain ⟨_, ⟨q', hq', hp'⟩, _⟩ := chainingEquations c k iv (xs.set i x') i x' hx'
    rw [getElem?_cons_set_of_ne (by omega), hq] at hq'
    cases hq'
    rw [hp, hp']
    exact fun h => hne (decrypt_injective c k (BitVec.xor_left_inj q |>.1 (Option.some.inj h)))
  case next =>
    rw [getElem?_cbcDecryptBlocks_succ c k iv hx, getElem?_cbcDecryptBlocks_succ c k iv hx',
      List.getElem?_set_ne (by omega), Option.map_map]
    refine congrArg (Option.map · _) (funext fun y => ?_)
    rw [Function.comp_apply, xor_cancel_right]

end Sys2Proof.Machine

/-! ## Padding: the Blocks of a padded byte string

A byte string is its whole Blocks, of an even number of bytes, and at most one byte more. -/

namespace Sys2Proof.Machine

/-- The padding of an odd string completes its last Block (R191). -/
theorem pad_of_odd {m : List Byte} (h : m.length % 2 = 1) : pad m = m ++ [0x01] := if_pos h

/-- The padding of an even string is a Block of its own (R191). -/
theorem pad_of_even {m : List Byte} (h : m.length % 2 = 0) : pad m = m ++ [0x02, 0x02] := if_neg (by omega)

/-- Two bytes more do not change whether a byte string is even. -/
theorem length_cons_cons_mod_two (a b : Byte) (m : List Byte) : (a :: b :: m).length % 2 = m.length % 2 :=
  Nat.add_mod_right m.length 2

/-- Padding adds one byte to an odd string and two to an even one (R191). -/
theorem length_pad (m : List Byte) : (pad m).length = 2 * (m.length / 2 + 1) := by
  obtain h | h := Nat.mod_two_eq_zero_or_one m.length
  · rw [pad_of_even h, List.length_append, List.length_cons, List.length_singleton]
    omega
  · rw [pad_of_odd h, List.length_append, List.length_singleton]
    omega

/-- Padding leaves the first two bytes of a string in front (R191). -/
theorem pad_cons_cons (a b : Byte) (m : List Byte) : pad (a :: b :: m) = a :: b :: pad m := by
  have hmod := length_cons_cons_mod_two a b m
  obtain h | h := Nat.mod_two_eq_zero_or_one m.length
  · rw [pad_of_even h, pad_of_even (hmod.trans h)]
    rfl
  · rw [pad_of_odd h, pad_of_odd (hmod.trans h)]
    rfl

/-- Each Block has two bytes (R56). -/
theorem length_blocksOfBytes (bs : List Byte) : (blocksOfBytes bs).length = bs.length / 2 := by
  induction bs using List.twoStepInduction with
  | nil | singleton => simp [blocksOfBytes]
  | cons_cons a b rest ih =>
    rw [blocksOfBytes, List.length_cons, ih, List.length_cons, List.length_cons]
    omega

/-- Whole Blocks are cut before what follows them (R56). -/
theorem blocksOfBytes_append {front : List Byte} (h : front.length % 2 = 0) (bs : List Byte) :
    blocksOfBytes (front ++ bs) = blocksOfBytes front ++ blocksOfBytes bs := by
  induction front using List.twoStepInduction with
  | nil => rfl
  | singleton => cases h
  | cons_cons a b rest ih =>
    have hrest := ih ((length_cons_cons_mod_two a b rest).symm.trans h)
    rw [List.cons_append, List.cons_append, blocksOfBytes, hrest, blocksOfBytes, List.cons_append]

theorem bytesOfBlocks_append (ps qs : List Word) : bytesOfBlocks (ps ++ qs) = bytesOfBlocks ps ++ bytesOfBlocks qs :=
  List.flatMap_append

theorem bytesOfBlocks_cons (p : Word) (ps : List Word) :
    bytesOfBlocks (p :: ps) = hiByte p :: loByte p :: bytesOfBlocks ps := rfl

/-- The bytes of the Blocks of an even byte string are the string (R54, R56). -/
theorem bytesOfBlocks_blocksOfBytes {bs : List Byte} (h : bs.length % 2 = 0) :
    bytesOfBlocks (blocksOfBytes bs) = bs := by
  induction bs using List.twoStepInduction with
  | nil => rfl
  | singleton => cases h
  | cons_cons a b rest ih =>
    have hrest := ih ((length_cons_cons_mod_two a b rest).symm.trans h)
    rw [blocksOfBytes, bytesOfBlocks_cons, hrest, hiByte_joinBytes, loByte_joinBytes]

/-- A byte string is whole Blocks, or whole Blocks and one byte. -/
theorem exists_wholeBlocks (m : List Byte) :
    ∃ front : List Byte, front.length % 2 = 0 ∧ (m = front ∨ ∃ x, m = front ++ [x]) := by
  obtain h | h := Nat.mod_two_eq_zero_or_one m.length
  · exact ⟨m, h, .inl rfl⟩
  · obtain rfl | ⟨front, x, rfl⟩ := List.eq_nil_or_concat' m
    · cases h
    · rw [List.length_append, List.length_singleton] at h
      exact ⟨front, by omega, .inr ⟨x, rfl⟩⟩

/-- The last Block of a padded even string (R193). -/
theorem blocksOfBytes_pad_of_even {m : List Byte} (h : m.length % 2 = 0) :
    blocksOfBytes (pad m) = blocksOfBytes m ++ [0x0202] := by
  rw [pad_of_even h, blocksOfBytes_append h]
  rfl

/-- The last Block of a padded odd string (R193). -/
theorem blocksOfBytes_pad_concat {m : List Byte} (h : m.length % 2 = 0) (x : Byte) :
    blocksOfBytes (pad (m ++ [x])) = blocksOfBytes m ++ [joinBytes x 0x01] := by
  rw [pad_of_odd (by rw [List.length_append, List.length_singleton]; omega), List.append_assoc,
    blocksOfBytes_append h]
  rfl

/-- Settles O52: whole Blocks are cut apart from the padded one. -/
theorem paddedBlocks : Obligations.PaddedBlocks := by
  refine ⟨fun m => ⟨pad_of_odd, pad_of_even, ?even, ?atLeastTwo, bytesOfBlocks_blocksOfBytes ?even⟩,
    fun m x h => ⟨blocksOfBytes_pad_concat h x, blocksOfBytes_pad_of_even h, bytesOfBlocks_blocksOfBytes h⟩⟩
  case even => rw [length_pad]; omega
  case atLeastTwo => rw [length_pad]; omega

/-! ### Unpadding -/

/-- A Block is 0x0202 exactly where both its bytes are 0x02 (R54). -/
theorem eq_0202_iff (p : Word) : p = 0x0202 ↔ loByte p = 0x02 ∧ hiByte p = 0x02 := by
  constructor
  · rintro rfl
    exact ⟨rfl, rfl⟩
  · rintro ⟨hlo, hhi⟩
    rw [← joinBytes_bytes p, hlo, hhi]
    rfl

/-- A last Block that the check refuses has neither accepted form (R194). -/
theorem not_validLastBlock_iff {p : Word} : ¬ validLastBlock p ↔ loByte p ≠ 0x01 ∧ p ≠ 0x0202 := by
  rw [validLastBlock, not_or, ← eq_0202_iff]

/-- One message byte remains of the last Block (R194). -/
theorem unpadLast_of_one {p : Word} (h : loByte p = 0x01) : unpadLast p = some [hiByte p] := if_pos h

/-- Of the last Block 0x0202 no message byte remains (R194). -/
@[simp] theorem unpadLast_0202 : unpadLast 0x0202 = some [] := rfl

/-- Any other last Block is refused (R194). -/
theorem unpadLast_of_not_valid {p : Word} (h : ¬ validLastBlock p) : unpadLast p = none := by
  obtain ⟨hone, htwo⟩ := not_validLastBlock_iff.1 h
  exact (if_neg hone).trans (if_neg htwo)

/-- The two forms of a valid last Block (R194). -/
theorem validLastBlock_iff (p : Word) : validLastBlock p ↔ (∃ x, p = joinBytes x 0x01) ∨ p = 0x0202 := by
  rw [validLastBlock, ← eq_0202_iff]
  refine or_congr_left ⟨fun h => ⟨hiByte p, ?_⟩, ?_⟩
  · rw [← h, joinBytes_bytes]
  · rintro ⟨x, rfl⟩
    exact loByte_joinBytes x 0x01

/-- Unpadding passes over a Block that others follow (R194, R206). -/
theorem unpadBlocks_cons (p : Word) {ps : List Word} (h : ps ≠ []) :
    unpadBlocks (p :: ps) = (unpadBlocks ps).map fun tail => hiByte p :: loByte p :: tail := by
  cases ps with
  | nil => exact absurd rfl h
  | cons q rest => rfl

/-- Unpadding is that of the last Block, behind the bytes of the others (R194, R206). -/
theorem unpadBlocks_append (ps : List Word) (p : Word) :
    unpadBlocks (ps ++ [p]) = (unpadLast p).map (bytesOfBlocks ps ++ ·) := by
  induction ps with
  | nil => exact Option.map_id'.symm
  | cons q ps ih =>
    rw [List.cons_append, unpadBlocks_cons q (by simp), ih, Option.map_map]
    rfl

/-- Unpadding gives the padded message back (R194). -/
@[simp] theorem unpadBlocks_blocksOfBytes_pad (m : List Byte) : unpadBlocks (blocksOfBytes (pad m)) = some m := by
  obtain ⟨front, h, rfl | ⟨x, rfl⟩⟩ := exists_wholeBlocks m
  · rw [blocksOfBytes_pad_of_even h, unpadBlocks_append, bytesOfBlocks_blocksOfBytes h, unpadLast_0202,
      Option.map_some, List.append_nil]
  · rw [blocksOfBytes_pad_concat h, unpadBlocks_append, bytesOfBlocks_blocksOfBytes h,
      unpadLast_of_one (loByte_joinBytes x 0x01), hiByte_joinBytes, Option.map_some]

/-- The source takes n padding bytes of value n off (R192). -/
theorem sourceUnpad_append_replicate (bs : List Byte) {n : Byte} (hn : n ≠ 0) :
    sourceUnpad (bs ++ List.replicate n.toNat n) = some bs := by
  have hpos : n.toNat ≠ 0 := fun h => hn (BitVec.eq_of_toNat_eq h)
  have hlast : (bs ++ List.replicate n.toNat n).getLast? = some n := by
    rw [List.getLast?_append, List.getLast?_replicate, if_neg hpos, Option.some_or]
  have hlen : (bs ++ List.replicate n.toNat n).length - n.toNat = bs.length := by simp
  have hvalid : n.toNat ≤ (bs ++ List.replicate n.toNat n).length
      ∧ ∀ b ∈ (bs ++ List.replicate n.toNat n).drop bs.length, b = n := by simp
  simp only [sourceUnpad, hlast, hlen, if_pos hvalid, List.take_left]

/-- The last Blocks that padding produces are the valid ones (R193, R194). -/
theorem validLastBlock_iff_exists_pad (p : Word) :
    validLastBlock p ↔ ∃ m, (blocksOfBytes (pad m)).getLast? = some p := by
  rw [validLastBlock_iff]
  constructor
  · rintro (⟨x, rfl⟩ | rfl)
    · exact ⟨[x], rfl⟩
    · exact ⟨[], rfl⟩
  · rintro ⟨m, hm⟩
    obtain ⟨front, h, rfl | ⟨x, rfl⟩⟩ := exists_wholeBlocks m
    · rw [blocksOfBytes_pad_of_even h, List.getLast?_concat] at hm
      exact .inr (Option.some.inj hm).symm
    · rw [blocksOfBytes_pad_concat h, List.getLast?_concat] at hm
      exact .inl ⟨x, (Option.some.inj hm).symm⟩

/-- On a valid last Block the core's unpadding is the source's of the whole byte string (R192, R194). -/
theorem unpadBlocks_eq_sourceUnpad {ps : List Word} {p : Word} (h : validLastBlock p) :
    unpadBlocks (ps ++ [p]) = sourceUnpad (bytesOfBlocks (ps ++ [p])) ∧ unpadBlocks (ps ++ [p]) ≠ none := by
  rw [unpadBlocks_append, bytesOfBlocks_append]
  obtain ⟨x, rfl⟩ | rfl := (validLastBlock_iff p).1 h
  · have hone : bytesOfBlocks ps ++ bytesOfBlocks [joinBytes x 0x01]
        = (bytesOfBlocks ps ++ [x]) ++ List.replicate (0x01 : Byte).toNat 0x01 := by
      simp [bytesOfBlocks]
    rw [hone, sourceUnpad_append_replicate _ (by decide), unpadLast_of_one (loByte_joinBytes x 0x01),
      hiByte_joinBytes]
    exact ⟨rfl, Option.some_ne_none _⟩
  · have htwo : bytesOfBlocks [0x0202] = List.replicate (0x02 : Byte).toNat 0x02 := by decide
    rw [htwo, sourceUnpad_append_replicate _ (by decide), unpadLast_0202, Option.map_some, List.append_nil]
    exact ⟨rfl, Option.some_ne_none _⟩

/-- The unpadding check accepts the valid last Blocks (R194). -/
theorem isSome_unpadLast_iff (p : Word) : (unpadLast p).isSome = true ↔ validLastBlock p := by
  constructor
  · intro h
    by_contra hp
    rw [unpadLast_of_not_valid hp] at h
    cases h
  · intro h
    obtain ⟨x, rfl⟩ | rfl := (validLastBlock_iff p).1 h
    · rw [unpadLast_of_one (loByte_joinBytes x 0x01)]
      rfl
    · rfl

/-- Settles O53: the two forms of a valid last Block are those that padding produces. -/
theorem unpadAcceptsPaddedBlocks : Obligations.UnpadAcceptsPaddedBlocks := by
  refine ⟨isSome_unpadLast_iff, validLastBlock_iff_exists_pad, unpadBlocks_blocksOfBytes_pad, fun ps p h => ?refused,
    fun _ _ => unpadBlocks_eq_sourceUnpad⟩
  case refused => rw [unpadBlocks_append, unpadLast_of_not_valid h, Option.map_none]

/-! ### CBC of a padded byte string -/

/-- The ciphertext has a Block more than the byte string has whole ones (R193, R205). -/
theorem length_cbcEncrypt (c : Config) (k iv : Word) (m : List Byte) :
    (cbcEncrypt c k iv m).length = m.length / 2 + 1 := by
  rw [cbcEncrypt, length_cbcEncryptBlocks, length_blocksOfBytes, length_pad, Nat.mul_div_cancel_left _ (by omega)]

/-- Decryption gives the byte string back (R207). -/
@[simp] theorem cbcDecrypt_cbcEncrypt (c : Config) (k iv : Word) (m : List Byte) :
    cbcDecrypt c k iv (cbcEncrypt c k iv m) = some m := by
  rw [cbcDecrypt, cbcEncrypt, cbcDecryptBlocks_cbcEncryptBlocks, unpadBlocks_blocksOfBytes_pad]

/-- The first Block is chained with IV, and there always is one (R190, R191). -/
theorem exists_head?_cbcEncrypt (c : Config) (k : Word) (m : List Byte) :
    ∃ p, ∀ iv, (cbcEncrypt c k iv m).head? = some (encrypt c (p ^^^ iv) k) := by
  obtain ⟨p, ps, hps⟩ : ∃ p ps, blocksOfBytes (pad m) = p :: ps := by
    refine List.exists_cons_of_length_pos ?_
    rw [length_blocksOfBytes, length_pad]
    omega
  exact ⟨p, fun iv => by rw [cbcEncrypt, hps]; rfl⟩

/-- Settles O57: encryption is injective, so the first Blocks differ as the IVs do. -/
theorem ivSensitivity : Obligations.IvSensitivity := by
  intro c k iv iv' m hne
  have hhead : (cbcEncrypt c k iv m).head? ≠ (cbcEncrypt c k iv' m).head? := by
    obtain ⟨p, hp⟩ := exists_head?_cbcEncrypt c k m
    rw [hp, hp]
    exact fun h => hne ((BitVec.xor_right_inj p).1 (encrypt_injective c k (Option.some.inj h)))
  exact ⟨hhead, fun h => hhead (congrArg List.head? h)⟩

end Sys2Proof.Machine

/-! ## The stream commands: their results

Each stream command has one equation per outcome, over the operations of Machine/Ops.lean. -/

namespace Sys2Proof.Machine

section
variable {s : State}

/-- CBCEI opens an encryption stream (R200). -/
theorem exec_cbcei_of_keylen (h : s.keylen = 1) : exec .cbcei s = .next (openStream modeEnc s) :=
  congrArg _ (withKeys_of_eq h _)

/-- CBCDI opens a decryption stream (R209). -/
theorem exec_cbcdi_of_keylen (h : s.keylen = 1) : exec .cbcdi s = .next (openStream modeDec s) :=
  congrArg _ (withKeys_of_eq h _)

/-- CBCEB holds the first byte of a block (R201). -/
theorem exec_cbceb_first (hm : s.mode = modeEnc) (hp : s.pbv = 0) :
    exec .cbceb s = .next (holdByte (dinByte s) s) :=
  congrArg _ ((inMode_of_eq hm takeByte).trans (if_pos hp))

/-- CBCEB emits a block on its second byte (R201). -/
theorem exec_cbceb_second (hm : s.mode = modeEnc) (hp : s.pbv = 1) :
    exec .cbceb s = .next (dropByte (emitBlock (chainEncrypt (joinBytes s.pbuf (dinByte s)) s) s)) :=
  congrArg _ ((inMode_of_eq hm takeByte).trans (if_neg (by simp [hp])))

/-- CBCEK emits the Block in DIN (R202). -/
theorem exec_cbcek_emits (hm : s.mode = modeEnc) (hp : s.pbv = 0) :
    exec .cbcek s = .next (emitBlock (chainEncrypt s.din s) s) :=
  congrArg _ ((inMode_of_eq hm takeBlock).trans (if_neg (by simp [hp])))

/-- CBCEF emits the last Block and closes the stream (R203). -/
theorem exec_cbcef_finishes (hm : s.mode = modeEnc) :
    exec .cbcef s = .next (closeStream (dropByte (emitBlock (chainEncrypt (lastBlock s) s) s))) :=
  congrArg _ (inMode_of_eq hm _)

/-- CBCDB decrypts the Block in DIN (R210). -/
theorem exec_cbcdb_decrypts (hm : s.mode = modeDec) :
    exec .cbcdb s = .next (writeResult (chainDecrypt s) (takeChain s)) :=
  congrArg _ (inMode_of_eq hm _)

/-- CBCDL decrypts the Block in DIN, unpads it and closes the stream (R211). -/
theorem exec_cbcdl_unpads (hm : s.mode = modeDec) :
    exec .cbcdl s = .next (unpadResult (chainDecrypt s) (closeStream (takeChain s))) :=
  congrArg _ (inMode_of_eq hm _)

/-- Where R196 asks for it, a command raises SEQUENCE. -/
theorem exec_of_outOfSequence {i : Instr} (h : outOfSequence i s) : exec i s = .next (raise .sequence s) := by
  obtain ⟨hi, hm⟩ | ⟨hi, hm⟩ | ⟨rfl, hp⟩ := h
  · simp only [List.mem_cons, List.not_mem_nil, or_false] at hi
    obtain rfl | rfl | rfl := hi <;> exact congrArg _ (inMode_of_ne hm _)
  · simp only [List.mem_cons, List.not_mem_nil, or_false] at hi
    obtain rfl | rfl := hi <;> exact congrArg _ (inMode_of_ne hm _)
  · by_cases hm : s.mode = modeEnc
    · exact congrArg _ ((inMode_of_eq hm takeBlock).trans (if_pos hp))
    · exact congrArg _ (inMode_of_ne hm _)

end

/-- A stream opens with no error, no output and no byte held, so STATUS shows MODE alone (R29, R200, R209). -/
theorem statusWord_openStream (m : BitVec 2) (s : State) : statusWord (openStream m s) = m.setWidth 16 <<< 5 := by
  simp [statusWord, errBits]

/-- Settles O45: the two outcomes of the key-length check. -/
theorem openStreamCommands : Obligations.OpenStreamCommands := by
  refine ⟨⟨decode_encode .cbcei, decode_encode .cbcdi⟩,
    fun s h => ⟨exec_cbcei_of_keylen h, exec_cbcdi_of_keylen h⟩,
    fun s h => ⟨exec_of_keylen_ne rfl h, exec_of_keylen_ne rfl h⟩, fun s h => ?status⟩
  case status =>
    exact ⟨⟨_, exec_cbcei_of_keylen h, statusWord_openStream ..⟩, ⟨_, exec_cbcdi_of_keylen h, statusWord_openStream ..⟩⟩

/-- Settles O46: the two outcomes of CBCEB in an encryption stream, and SEQUENCE outside one. -/
theorem cbcebResult : Obligations.CbcebResult := by
  refine ⟨decode_encode .cbceb, fun s => exec_cbceb_first, fun s => exec_cbceb_second,
    fun s hm => exec_of_outOfSequence (outOfSequence_of_enc (by decide) hm), ?row, ?column⟩
  case row => exact ⟨_, rfl, by decide⟩
  case column => exact ⟨_, rfl, by decide⟩

/-- The byte buffer is 0 where it is empty, so emptying it again changes nothing (R33). -/
theorem dropByte_of_empty {s : State} (hp : s.pbv = 0) (hb : s.pbuf = 0) : dropByte s = s := by
  rw [dropByte, ← hp, ← hb]

/-- A held byte and its pair leave no trace but the emitted block where the buffer was empty before (R33, R201). -/
theorem dropByte_emitBlock_holdByte {s : State} (hp : s.pbv = 0) (hb : s.pbuf = 0) (a : Byte) (c : Word) :
    dropByte (emitBlock c (holdByte a s)) = emitBlock c s :=
  dropByte_of_empty (s := emitBlock c s) hp hb

/-- DIN[7:0] of a zero-extended byte is the byte (R75, R80). -/
theorem dinByte_zextByte (b : Byte) (s : State) : dinByte { s with din := zextByte b } = b := loByte_zextByte b

/-- CBCEB on a block boundary holds the byte the host writes to DIN (R80, R201). -/
theorem exec_cbceb_first_byte {s : State} (hm : s.mode = modeEnc) (hp : s.pbv = 0) (a : Byte) :
    exec .cbceb { s with din := zextByte a } = .next (holdByte a { s with din := zextByte a }) := by
  rw [exec_cbceb_first (s := { s with din := zextByte a }) hm hp, dinByte_zextByte]

/-- CBCEB with a byte held emits the Block of the two, as CBCEK does without one (R201, R202). -/
theorem exec_cbceb_second_byte {s : State} (hm : s.mode = modeEnc) (hp : s.pbv = 0) (hb : s.pbuf = 0) (a b : Byte) :
    exec .cbceb { holdByte a s with din := zextByte b }
      = .next { emitBlock (chainEncrypt (joinBytes a b) s) s with din := zextByte b } := by
  rw [exec_cbceb_second (s := { holdByte a s with din := zextByte b }) hm rfl, dinByte_zextByte]
  exact congrArg _ (dropByte_emitBlock_holdByte (s := { s with din := zextByte b }) hp hb a _)

/-- Settles O47: CBCEB's two outcomes one after the other are CBCEK's, on the two bytes of DIN. -/
theorem cbcekResult : Obligations.CbcekResult := by
  refine ⟨decode_encode .cbcek, fun s => exec_cbcek_emits, fun s h => exec_of_outOfSequence ?sequence,
    fun s hs hm hp => ?pair, by decide⟩
  case sequence =>
    obtain hm | hp := h
    · exact outOfSequence_of_enc (by decide) hm
    · exact .inr (.inr ⟨rfl, hp⟩)
  case pair =>
    have hsecond := exec_cbceb_second_byte hm hp (hs.buffer_empty hp) (hiByte s.din) (loByte s.din)
    rw [joinBytes_bytes] at hsecond
    exact ⟨_, _, exec_cbcek_emits hm hp, exec_cbceb_first_byte hm hp (hiByte s.din), hsecond⟩

/-- Settles O48: CBCEF's one outcome in an encryption stream, and SEQUENCE outside one; neither reads DIN. -/
theorem cbcefResult : Obligations.CbcefResult := by
  refine ⟨decode_encode .cbcef, fun s => exec_cbcef_finishes,
    fun s hm => exec_of_outOfSequence (outOfSequence_of_enc (by decide) hm), fun s d => ?din, fun s hk => ?empty,
    by decide⟩
  case din =>
    by_cases hm : s.mode = modeEnc
    · rw [resultOf_of_exec (exec_cbcef_finishes hm),
        resultOf_of_exec (exec_cbcef_finishes (s := { s with din := d }) hm)]
      rfl
    · have hseq : ∀ t : State, t.mode ≠ modeEnc → resultOf .cbcef t = some t.dout := fun t ht =>
        resultOf_of_exec (t := raise .sequence t) (exec_of_outOfSequence (outOfSequence_of_enc (by decide) ht))
      rw [hseq s hm, hseq { s with din := d } hm]
  case empty => exact ⟨_, _, exec_cbcei_of_keylen hk, exec_cbcef_finishes rfl, rfl⟩

/-- With OUTN = 2 both bytes of DOUT are valid output, the high one first (R31, R56). -/
theorem validBytes_two {s : State} (h : s.outn = 2) (d : Word) : validBytes (statusWord s) d = [hiByte d, loByte d] :=
  if_pos ((statusOutn_statusWord s).trans h)

/-- Settles O49: CBCDB's one outcome in a decryption stream, and SEQUENCE outside one. -/
theorem cbcdbResult : Obligations.CbcdbResult := by
  refine ⟨decode_encode .cbcdb, fun s => exec_cbcdb_decrypts, fun s hm => ?bytes,
    fun s hm => exec_of_outOfSequence (outOfSequence_of_dec (by decide) hm), ?row⟩
  case bytes => exact ⟨_, exec_cbcdb_decrypts hm, validBytes_two rfl _⟩
  case row => exact ⟨_, rfl, by decide⟩

/-- One byte remains of the last Block (R194, R212). -/
theorem unpadResult_of_one {p : Word} (h : loByte p = 0x01) (s : State) :
    unpadResult p s = { s with dout := p &&& 0xFF00, outn := 1, err := errBits .ok } := if_pos h

/-- None remains of the last Block 0x0202 (R194, R212). -/
theorem unpadResult_0202 (s : State) : unpadResult 0x0202 s = { s with dout := 0, outn := 0, err := errBits .ok } :=
  rfl

/-- Any other last Block is a PADDING error (R212, R213). -/
theorem unpadResult_of_not_valid {p : Word} (h : ¬ validLastBlock p) (s : State) :
    unpadResult p s = raise .padding { s with dout := 0 } := by
  obtain ⟨hone, htwo⟩ := not_validLastBlock_iff.1 h
  exact (if_neg hone).trans (if_neg htwo)

/-- The last byte of a valid last Block is its pad count, 1 or 2 (R192, R194). -/
theorem loByte_of_validLastBlock {p : Word} (h : validLastBlock p) : loByte p = 0x01 ∨ loByte p = 0x02 :=
  h.imp_right And.left

/-- Settles O50: CBCDL's outcome follows the unpadding check, which refuses the last three kinds of Block. -/
theorem cbcdlResult : Obligations.CbcdlResult := by
  refine ⟨decode_encode .cbcdl, fun s hm => ?outcomes,
    fun s hm => exec_of_outOfSequence (outOfSequence_of_dec (by decide) hm), ?row⟩
  case row => exact ⟨_, rfl, by decide⟩
  case outcomes =>
    intro p
    have hexec : exec .cbcdl s = .next (unpadResult p (closeStream (takeChain s))) := exec_cbcdl_unpads hm
    rw [hexec]
    have refused : ¬ validLastBlock p → unpadResult p (closeStream (takeChain s))
        = raise .padding { closeStream (takeChain s) with dout := 0 } := fun h => unpadResult_of_not_valid h _
    refine ⟨fun h => congrArg _ (unpadResult_of_one h _), fun h => ?empty, fun h => congrArg _ (refused ?notSecond),
      fun h => congrArg _ (refused ?zero), fun h => congrArg _ (refused ?large)⟩
    case empty =>
      rw [h, unpadResult_0202]
      rfl
    case notSecond =>
      obtain ⟨hlo, hhi⟩ := h
      rintro (hone | ⟨_, htwo⟩)
      · exact absurd (hlo.symm.trans hone) (by decide)
      · exact hhi htwo
    case zero => exact fun hv => absurd (h ▸ loByte_of_validLastBlock hv) (by decide)
    case large =>
      intro hv
      obtain hlo | hlo := loByte_of_validLastBlock hv <;> rw [hlo] at h <;> exact absurd h (by decide)

end Sys2Proof.Machine

/-! ## The stream commands: sequence, MODE and the latched key -/

namespace Sys2Proof.Machine

/-- CBCDL's error is OK or PADDING (R212). -/
theorem unpadResult_err (p : Word) (s : State) : (unpadResult p s).err = 0 ∨ (unpadResult p s).err = 2 := by
  obtain ⟨_, h⟩ | ⟨_, _, h⟩ | ⟨_, _, h⟩ := unpadResult_cases p s <;> rw [h]
  · exact .inl rfl
  · exact .inl rfl
  · exact .inr rfl

/-- A command raises SEQUENCE for no other reason than those of R196. -/
theorem CommandEffect.err_ne_sequence {i : Instr} {s t : State} (h : CommandEffect s i t)
    (hi : ¬ outOfSequence i s) : t.err ≠ 3 := by
  cases h with
  | sequenceError hw => exact absurd hw hi
  | unpads =>
    obtain herr | herr := unpadResult_err (chainDecrypt s) (closeStream (takeChain s)) <;> rw [herr] <;> decide
  | keyLengthError =>
    rw [raise_err]
    decide
  | _ => exact (by decide : errBits .ok ≠ 3)

/-- Settles O39: the one error the sequence check raises, and the effects of a command that passes it. -/
theorem sequenceErrors : Obligations.SequenceErrors := by
  refine ⟨fun i s => exec_of_outOfSequence, fun i s hi => ?others, fun s => ?opens⟩
  case others =>
    obtain ⟨t, ht, heff⟩ := exec_effect i s
    exact ⟨t, ht, heff.err_ne_sequence hi⟩
  case opens => constructor <;> simp [outOfSequence]

/-- CBCDL closes the stream, whatever the unpadding check says (R211). -/
theorem unpadResult_mode (p : Word) (s : State) : (unpadResult p s).mode = s.mode := by
  obtain ⟨hmode, _⟩ := (unpadResult_onlyResultChanged p s).stream
  exact hmode

/-- The commands of files 41, 42 and 43 are no stream commands. -/
theorem not_mem_streamCommands : ∀ i ∈ transformCommands ++ singleKeyCommands ++ multiKeyCommands,
    i ∉ [Instr.cbcei, .cbcdi, .cbceb, .cbcek, .cbcef, .cbcdb, .cbcdl] := by decide

/-- The commands of files 41, 42 and 43 leave the stream as it is (R197). -/
theorem CommandEffect.sameStream {i : Instr} {s t : State} (h : CommandEffect s i t)
    (hi : i ∈ transformCommands ++ singleKeyCommands ++ multiKeyCommands) : sameStream s t := by
  have hnot := not_mem_streamCommands i hi
  simp only [List.mem_cons, List.not_mem_nil, or_false, not_or] at hnot
  obtain ⟨hpbv, hpbuf⟩ := h.buffer_eq (by simp [hnot])
  exact ⟨h.mode_eq (by simp [hnot]), hpbv, hpbuf, h.chain_eq (by simp [hnot]), h.cbckey_eq (by simp [hnot])⟩

/-- Settles O43: a row is one outcome of its command. -/
theorem modeTransitions : Obligations.ModeTransitions := by
  have sequence : ∀ {i : Instr} {s : State}, outOfSequence i s →
      ∃ t, exec i s = .next t ∧ t.mode = s.mode ∧ t.err = 3 := fun h => ⟨_, exec_of_outOfSequence h, rfl, rfl⟩
  refine ⟨fun s hk => ?openEnc, fun i s hi hk => ?keyLength, fun i s hi hm => ?block, fun s hm => ?finish,
    fun s hm => ?decrypt, fun s hm => ?unpad, fun i s hi hm => sequence (outOfSequence_of_enc hi hm),
    fun i s hi hm => sequence (outOfSequence_of_dec hi hm), fun i s t hi h => ?others, fun s rest => ?reset⟩
  case openEnc =>
    exact ⟨⟨_, exec_cbcei_of_keylen hk, rfl, rfl, rfl, rfl⟩, ⟨_, exec_cbcdi_of_keylen hk, rfl, rfl, rfl, rfl⟩⟩
  case keyLength =>
    have hneeds : ∀ i ∈ [Instr.cbcei, .cbcdi], keysNeeded i = some 1 := by decide
    exact ⟨_, exec_of_keylen_ne (hneeds i hi) hk, rfl, rfl⟩
  case block =>
    have hkeeps : ∀ i ∈ [Instr.cbceb, .cbcek], i ∉ [Instr.cbcei, .cbcdi, .cbcef, .cbcdl] := by decide
    obtain ⟨t, ht, heff⟩ := exec_effect i s
    exact ⟨t, ht, (heff.mode_eq (hkeeps i hi)).trans hm⟩
  case finish => exact ⟨_, exec_cbcef_finishes hm, rfl, rfl⟩
  case decrypt => exact ⟨_, exec_cbcdb_decrypts hm, hm, rfl⟩
  case unpad => exact ⟨_, exec_cbcdl_unpads hm, unpadResult_mode _ _, unpadResult_err _ _⟩
  case others =>
    obtain ⟨hmode, _⟩ := (commandEffect_of_exec h).sameStream hi
    exact hmode
  case reset => exact ⟨_, step_reset s rest, rfl⟩

/-! ### What an open stream reads -/

/-- s with KEY1, KEY2, KEY3, IV and KEYLEN replaced: what the host may write while a stream is open (R197). -/
def replaceKeysAndIv (k1 k2 k3 v : Word) (n : BitVec 3) (s : State) : State :=
  { s with key1 := k1, key2 := k2, key3 := k3, keylen := n, iv := v }

/-- f neither reads nor writes KEY1, KEY2, KEY3, KEYLEN and IV: it commutes with replacing them. -/
def IgnoresKeysAndIv (f : State → State) : Prop :=
  ∀ (s : State) (k1 k2 k3 v : Word) (n : BitVec 3),
    f (replaceKeysAndIv k1 k2 k3 v n s) = replaceKeysAndIv k1 k2 k3 v n (f s)

/-- The sequence check reads MODE alone (R196). -/
theorem IgnoresKeysAndIv.inMode {m : BitVec 2} {f : State → State} (hf : IgnoresKeysAndIv f) :
    IgnoresKeysAndIv (inMode m f) := by
  intro s k1 k2 k3 v n
  obtain ⟨hm, h⟩ | ⟨hm, h⟩ := inMode_cases m f s <;> rw [h]
  · exact (inMode_of_eq (s := replaceKeysAndIv k1 k2 k3 v n s) hm f).trans (hf s k1 k2 k3 v n)
  · exact inMode_of_ne (s := replaceKeysAndIv k1 k2 k3 v n s) hm f

/-- CBCEB uses the latched key and CHAIN (R197, R201). -/
theorem ignoresKeysAndIv_takeByte : IgnoresKeysAndIv takeByte := by
  intro s k1 k2 k3 v n
  obtain ⟨hp, h⟩ | ⟨hp, h⟩ := takeByte_cases s <;> rw [h]
  · exact if_pos hp
  · exact if_neg (by simp [replaceKeysAndIv, hp])

/-- CBCEK uses the latched key and CHAIN (R197, R202). -/
theorem ignoresKeysAndIv_takeBlock : IgnoresKeysAndIv takeBlock := by
  intro s k1 k2 k3 v n
  obtain ⟨hp, h⟩ | ⟨hp, h⟩ := takeBlock_cases s <;> rw [h]
  · exact if_pos hp
  · exact if_neg hp

/-- CBCDL's outcome depends on the decrypted Block (R211, R212). -/
theorem ignoresKeysAndIv_unpadResult (p : Word) : IgnoresKeysAndIv (unpadResult p) := by
  intro s k1 k2 k3 v n
  obtain ⟨h1, h⟩ | ⟨h1, h2, h⟩ | ⟨h1, h2, h⟩ := unpadResult_cases p s <;> rw [h]
  · exact if_pos h1
  · exact (if_neg h1).trans (if_pos h2)
  · exact (if_neg h1).trans (if_neg h2)

/-- Each command of an open stream is a function that reads no key register, KEYLEN or IV (R197). -/
theorem exec_ignoresKeysAndIv {i : Instr} (h : i ∈ [Instr.cbceb, .cbcek, .cbcef, .cbcdb, .cbcdl]) :
    ∃ f, (∀ s, exec i s = .next (f s)) ∧ IgnoresKeysAndIv f := by
  simp only [List.mem_cons, List.not_mem_nil, or_false] at h
  obtain rfl | rfl | rfl | rfl | rfl := h
  · exact ⟨_, exec_cbceb, .inMode ignoresKeysAndIv_takeByte⟩
  · exact ⟨_, exec_cbcek, .inMode ignoresKeysAndIv_takeBlock⟩
  · exact ⟨_, exec_cbcef, .inMode fun _ _ _ _ _ _ => rfl⟩
  · exact ⟨_, exec_cbcdb, .inMode fun _ _ _ _ _ _ => rfl⟩
  · exact ⟨_, exec_cbcdl,
      .inMode fun s => ignoresKeysAndIv_unpadResult (chainDecrypt s) (closeStream (takeChain s))⟩

/-- A write to a register of the host leaves the stream as it is (R197). -/
theorem onlyHostRegsChanged.sameStream {s t : State} (h : onlyHostRegsChanged s t) : sameStream s t := by
  rw [h]
  exact ⟨rfl, rfl, rfl, rfl, rfl⟩

/-- Settles O44: the frames of writes and of the other commands, and what the stream commands read. -/
theorem streamKeepsItsKey : Obligations.StreamKeepsItsKey := by
  refine ⟨fun s a v rest ha => ?write, fun i s hi => ?others, fun i s k1 k2 k3 v n hi => ?stream⟩
  case write =>
    exact ⟨_, step_write_of_ne_zero ha s v rest, (storeReg_frame (portReg a) v { s with pending := rest }).sameStream⟩
  case others =>
    obtain ⟨t, ht, heff⟩ := exec_effect i s
    exact ⟨t, ht, heff.sameStream hi⟩
  case stream =>
    have hlatched : ∀ i ∈ [Instr.cbceb, .cbcek, .cbcef, .cbcdb, .cbcdl], i ∉ [Instr.cbcei, .cbcdi] := by decide
    obtain ⟨f, hf, hign⟩ := exec_ignoresKeysAndIv hi
    exact ⟨f s, hf s, (commandEffect_of_exec (hf s)).cbckey_eq (hlatched i hi),
      (hf _).trans (congrArg _ (hign s k1 k2 k3 v n))⟩

end Sys2Proof.Machine

/-! ## Runs of host programs

A host program without branches takes the core from one state to another whatever transactions follow it (R59), so
programs are run piece by piece. -/

namespace Sys2Proof.Machine

/-- The transactions of prog take the core from s to t; what is pending after them stays pending. -/
def RunsTo (prog : List HostStmt) (s t : State) : Prop :=
  ∀ rest, runSteps (programEvents prog).length { s with pending := programEvents prog ++ rest }
    = .next { t with pending := rest }

/-- A run of j steps that answers t goes on from t. -/
theorem runSteps_add {j : Nat} {s t : State} (h : runSteps j s = .next t) (k : Nat) :
    runSteps (j + k) s = runSteps k t := by
  induction j generalizing s with
  | zero =>
    cases h
    rw [Nat.zero_add]
  | succ j ih =>
    obtain ⟨u, hu⟩ := answersNext_step s
    rw [runSteps_of_next hu] at h
    rw [Nat.succ_add, runSteps_of_next hu, ih h]

section
variable {p q : List HostStmt} {s t u : State}

/-- Programs run one after the other. -/
theorem RunsTo.append (hp : RunsTo p s t) (hq : RunsTo q t u) : RunsTo (p ++ q) s u := by
  intro rest
  rw [programEvents_append, List.length_append, List.append_assoc, runSteps_add (hp _), hq]

/-- A program run from s, with nothing read before and nothing pending after it. -/
theorem RunsTo.runProgram_eq (h : RunsTo p { s with replies := [] } t) :
    runProgram p s = .next { t with pending := [] } := by
  have hrun := h []
  rw [List.append_nil] at hrun
  exact hrun

/-- A statement that is one transaction runs as its event is handled. -/
theorem RunsTo.of_handleEvent {x : HostStmt} {e : HostEvent} (hx : stmtEvent x = some e)
    (h : ∀ rest, handleEvent e { s with pending := rest } = .next { t with pending := rest }) : RunsTo [x] s t := by
  intro rest
  have hevents : programEvents [x] = [e] := by simp [programEvents, hx]
  rw [hevents]
  exact runSteps_of_next ((step_cons s e rest).trans (h rest)) 0

end

/-- `WR` of a register other than CMD stores (R79). -/
theorem RunsTo.wr {r : PortReg} (hr : portIndex r ≠ 0) (v : Word) (s : State) : RunsTo [.wr r v] s (storeReg r v s) :=
  .of_handleEvent rfl fun rest => by
    rw [handleEvent, busWrite_of_ne_zero hr, portReg_portIndex, ignoresPending_storeReg]

/-- `RD` answers with the register (R79). -/
theorem RunsTo.rd (r : PortReg) (s : State) : RunsTo [.rd r] s { s with replies := s.replies ++ [readReg s r] } :=
  .of_handleEvent rfl fun rest => by
    rw [handleEvent, ignoresPending_busReadReply, busReadReply, portReg_portIndex]

/-- A command mnemonic stores the command's word in CMD and runs the command (R57, R79). -/
theorem RunsTo.cmd {i : Instr} {s t : State} (h : exec i { s with cmd := encode i } = .next t) : RunsTo [.cmd i] s t :=
  .of_handleEvent rfl fun rest => by
    obtain ⟨f, hf, hign⟩ := exec_ignoresPending i
    cases (hf _).symm.trans h
    exact (runCommand_of_ok (decode_encode i) _).trans
      ((hf _).trans (congrArg _ (hign { s with cmd := encode i } rest)))

/-- s after the host has read STATUS and DOUT. -/
def readResult (s : State) : State := { s with replies := s.replies ++ [statusWord s, s.dout] }

/-- `RD STATUS ; RD DOUT` (R266). -/
theorem RunsTo.rd_status_dout (s : State) : RunsTo [.rd .status, .rd .dout] s (readResult s) := by
  have h := (RunsTo.rd .status s).append (.rd .dout _)
  rw [List.append_assoc] at h
  exact h

/-- The state in which the command i runs after the host has written x to DIN: CMD holds its word (R57). -/
def withOperand (i : Instr) (x : Word) (s : State) : State := { s with din := x, cmd := encode i }

/-- `WR DIN, x ; op` (R79). -/
theorem RunsTo.wr_din_cmd {i : Instr} {x : Word} {s t : State} (h : exec i (withOperand i x s) = .next t) :
    RunsTo [.wr .din x, .cmd i] s t :=
  have hcmd : RunsTo [.cmd i] { s with din := x } t := .cmd h
  (RunsTo.wr (r := .din) (by decide) x s).append hcmd

/-- `WR DIN, x ; op ; RD STATUS ; RD DOUT` (R80). -/
theorem RunsTo.runStmts {i : Instr} {x : Word} {s t : State}
    (h : exec i (withOperand i x s) = .next t) : RunsTo (runStmts i x) s (readResult t) :=
  (RunsTo.wr_din_cmd h).append (.rd_status_dout t)

/-- Writing KEY1, KEYLEN = 1 and IV and then CBCEI or CBCDI opens a stream with that key and IV (R200, R209). -/
theorem RunsTo.openStream {i : Instr} {m : BitVec 2} (hi : ∀ s, exec i s = .next (withKeys 1 (openStream m) s))
    (k iv : Word) (s : State) : RunsTo (expandPseudo (.key k) ++ [.wr .iv iv, .cmd i]) s
      (openStream m { s with key1 := k, keylen := 1, iv := iv, cmd := encode i }) := by
  have hkey : RunsTo (expandPseudo (.key k)) s { s with key1 := k, keylen := 1 } :=
    (RunsTo.wr (r := .key1) (by decide) k s).append (.wr (r := .keylen) (by decide) 1 { s with key1 := k })
  have hiv : RunsTo [.wr .iv iv] { s with key1 := k, keylen := 1 } { s with key1 := k, keylen := 1, iv := iv } :=
    .wr (by decide) iv _
  have hopen : RunsTo [.cmd i] { s with key1 := k, keylen := 1, iv := iv }
      (Machine.openStream m { s with key1 := k, keylen := 1, iv := iv, cmd := encode i }) :=
    .cmd ((hi _).trans (congrArg _ (withKeys_of_eq rfl _)))
  exact hkey.append (hiv.append hopen)

end Sys2Proof.Machine

/-! ## The encryption stream

The Blocks that a stream has yet to emit are the CBC encryption, from the stream's CHAIN on, of the held byte and the
bytes to come. -/

namespace Sys2Proof.Machine

/-- The byte that an encryption stream holds, if any (R33). -/
def heldBytes (s : State) : List Byte := if s.pbv = 1 then [s.pbuf] else []

theorem heldBytes_of_zero {s : State} (h : s.pbv = 0) : heldBytes s = [] := if_neg (by simp [h])

theorem heldBytes_of_one {s : State} (h : s.pbv = 1) : heldBytes s = [s.pbuf] := if_pos h

/-- What the host collects from one read of STATUS and DOUT, and the rest (R31, R205). -/
theorem blocksCollected_cons (s : State) (w : List Word) : blocksCollected (statusWord s :: s.dout :: w)
    = if s.outn = 2 then s.dout :: blocksCollected w else blocksCollected w := by
  rw [blocksCollected, statusOutn_statusWord]

/-- CBCEF's Block is the padded one of the held byte (R193, R203). -/
theorem blocksOfBytes_pad_heldBytes (s : State) : blocksOfBytes (pad (heldBytes s)) = [lastBlock s] := by
  rw [lastBlock]
  by_cases h : s.pbv = 1
  · rw [heldBytes_of_one h, if_pos h]
    rfl
  · rw [heldBytes, if_neg h, if_neg h]
    rfl

/-- The host program that gives each byte of m and ends the stream. -/
def encryptRest (m : List Byte) : List HostStmt :=
  m.flatMap (fun b => expandPseudo (.putb (zextByte b))) ++ [.cmd .cbcef, .rd .status, .rd .dout]

/-- From s to t the host collects the Blocks bs, and the stream ends without an error. -/
structure Emits (s t : State) (bs : List Word) : Prop where
  collected : ∃ w, t.replies = s.replies ++ w ∧ blocksCollected w = bs
  err_eq : t.err = 0
  mode_eq : t.mode = modeIdle

/-- The end of the stream emits the last Block (R203). -/
theorem emits_cbcef {s : State} (hm : s.mode = modeEnc) : ∃ t, RunsTo (encryptRest []) s t
    ∧ Emits s t [chainEncrypt (lastBlock s) s] := by
  have hend := RunsTo.cmd (exec_cbcef_finishes (s := { s with cmd := encode .cbcef }) hm)
  refine ⟨_, hend.append (.rd_status_dout _), ⟨_, rfl, ?_⟩, rfl, rfl⟩
  rw [blocksCollected_cons]
  rfl

/-- A read of STATUS and DOUT with no new output adds nothing to what the host collects. -/
theorem Emits.of_held {s t u : State} {bs : List Word} (h : Emits (readResult t) u bs)
    (hreplies : t.replies = s.replies) (houtn : t.outn = 0) : Emits s u bs := by
  obtain ⟨⟨w, hw, hbs⟩, herr, hmode⟩ := h
  refine ⟨⟨statusWord t :: t.dout :: w, ?_, ?_⟩, herr, hmode⟩
  · rw [hw, readResult, hreplies, List.append_assoc]
    rfl
  · rw [blocksCollected_cons, houtn]
    exact hbs

/-- A read of STATUS and DOUT with OUTN = 2 adds the Block in DOUT. -/
theorem Emits.of_emitted {s t u : State} {bs : List Word} (h : Emits (readResult t) u bs)
    (hreplies : t.replies = s.replies) (houtn : t.outn = 2) : Emits s u (t.dout :: bs) := by
  obtain ⟨⟨w, hw, hbs⟩, herr, hmode⟩ := h
  refine ⟨⟨statusWord t :: t.dout :: w, ?_, ?_⟩, herr, hmode⟩
  · rw [hw, readResult, hreplies, List.append_assoc]
    rfl
  · rw [blocksCollected_cons, houtn, if_pos rfl, hbs]

/-- A stream that holds no byte holds the next one and emits nothing (R201). -/
theorem RunsTo.putb_first {s : State} (hm : s.mode = modeEnc) (hp : s.pbv = 0) (b : Byte) :
    RunsTo (expandPseudo (.putb (zextByte b))) s (readResult (holdByte b (withOperand .cbceb (zextByte b) s))) :=
  .runStmts (exec_cbceb_first_byte (s := { s with cmd := encode .cbceb }) hm hp b)

/-- A stream that holds a byte emits the Block of it and the next one (R201). -/
theorem RunsTo.putb_second {s : State} (hm : s.mode = modeEnc) (hp : s.pbv = 1) (b : Byte) :
    RunsTo (expandPseudo (.putb (zextByte b))) s (readResult (dropByte (emitBlock
      (chainEncrypt (joinBytes s.pbuf b) s) (withOperand .cbceb (zextByte b) s)))) := by
  have hb : dinByte (withOperand .cbceb (zextByte b) s) = b := loByte_zextByte b
  have hexec := exec_cbceb_second (s := withOperand .cbceb (zextByte b) s) hm hp
  rw [hb] at hexec
  exact .runStmts hexec

/-- The Blocks that an open stream emits for m are the CBC encryption of the held byte and m, padded: by induction
on m, each byte either is held or completes a Block (R205). -/
theorem emits_encryptRest (m : List Byte) {s : State} (hm : s.mode = modeEnc) : ∃ t, RunsTo (encryptRest m) s t
    ∧ Emits s t (cbcEncryptBlocks s.cfg s.cbckey s.chain (blocksOfBytes (pad (heldBytes s ++ m)))) := by
  induction m generalizing s with
  | nil =>
    rw [List.append_nil, blocksOfBytes_pad_heldBytes]
    exact emits_cbcef hm
  | cons b m ih =>
    have hprog : encryptRest (b :: m) = expandPseudo (.putb (zextByte b)) ++ encryptRest m := by
      simp [encryptRest]
    rw [hprog]
    by_cases hp : s.pbv = 0
    · have hput := RunsTo.putb_first hm hp b
      obtain ⟨t, hrun, hemits⟩ := ih (s := readResult (holdByte b (withOperand .cbceb (zextByte b) s))) hm
      refine ⟨t, hput.append hrun, ?_⟩
      rw [heldBytes_of_zero hp]
      exact hemits.of_held rfl rfl
    · have hput := RunsTo.putb_second hm (bit_eq_one hp) b
      obtain ⟨t, hrun, hemits⟩ := ih (s := readResult (dropByte (emitBlock
        (chainEncrypt (joinBytes s.pbuf b) s) (withOperand .cbceb (zextByte b) s)))) hm
      refine ⟨t, hput.append hrun, ?_⟩
      rw [heldBytes_of_one (bit_eq_one hp), List.singleton_append, pad_cons_cons]
      exact hemits.of_emitted rfl rfl

/-- The program of R205 runs, and what the host collects is the source's ciphertext of m (R205). -/
theorem runProgram_encryptProgram (s : State) (k iv : Word) (m : List Byte) :
    ∃ t, runProgram (encryptProgram k iv m) s = .next t ∧ blocksCollected t.replies = cbcEncrypt s.cfg k iv m
      ∧ t.err = 0 ∧ t.mode = modeIdle := by
  have hopen := RunsTo.openStream exec_cbcei k iv { s with replies := [] }
  obtain ⟨t, hrest, ⟨w, hw, hblocks⟩, herr, hmode⟩ := emits_encryptRest m
    (s := openStream modeEnc { s with key1 := k, keylen := 1, iv := iv, cmd := encode .cbcei, replies := [] }) rfl
  have hrun := hopen.append hrest
  rw [encryptRest, ← List.append_assoc] at hrun
  refine ⟨{ t with pending := [] }, hrun.runProgram_eq, ?_, herr, hmode⟩
  rw [show t.replies = w from hw, hblocks]
  rfl

/-- CBCEK with the Block of a and b, from a block boundary, leaves what CBCEB with a and then with b leaves, but for
DIN and CMD (R205). -/
theorem runsTo_cbcek_cbceb_cbceb {s : State} (hm : s.mode = modeEnc) (hp : s.pbv = 0) (hb : s.pbuf = 0) (a b : Byte) :
    ∃ t u, RunsTo [.wr .din (joinBytes a b), .cmd .cbcek] s t
      ∧ RunsTo [.wr .din (zextByte a), .cmd .cbceb, .wr .din (zextByte b), .cmd .cbceb] s u
      ∧ t = { u with cmd := t.cmd, din := t.din } := by
  have hblock : RunsTo [.wr .din (joinBytes a b), .cmd .cbcek] s _ :=
    .wr_din_cmd (exec_cbcek_emits (s := withOperand .cbcek (joinBytes a b) s) hm hp)
  have hfirst : RunsTo [.wr .din (zextByte a), .cmd .cbceb] s _ :=
    .wr_din_cmd (exec_cbceb_first_byte (s := { s with cmd := encode .cbceb }) hm hp a)
  have hsecond : RunsTo [.wr .din (zextByte b), .cmd .cbceb] _ _ :=
    .wr_din_cmd (exec_cbceb_second_byte (s := { s with cmd := encode .cbceb }) hm hp hb a b)
  exact ⟨_, _, hblock, hfirst.append hsecond, rfl⟩

/-- Settles O54: the Blocks are counted by the ciphertext's length, and the two programs run from nothing read. -/
theorem encryptionStreamLaw : Obligations.EncryptionStreamLaw := by
  refine ⟨fun s k iv m => ?stream, fun s a b hs hm hp => ?pair⟩
  case stream =>
    obtain ⟨t, hrun, hblocks, herr, hmode⟩ := runProgram_encryptProgram s k iv m
    exact ⟨t, hrun, hblocks, by rw [hblocks, length_cbcEncrypt], herr, hmode⟩
  case pair =>
    obtain ⟨t, u, ht, hu, htu⟩ := runsTo_cbcek_cbceb_cbceb (s := { s with replies := [] }) hm hp
      (hs.buffer_empty hp) a b
    exact ⟨_, _, ht.runProgram_eq, hu.runProgram_eq, congrArg (fun x : State => { x with pending := [] }) htu⟩

end Sys2Proof.Machine

/-! ## The decryption stream

The bytes that a stream has yet to give are the unpadding of the CBC decryption, from the stream's CHAIN on, of the
Blocks to come. -/

namespace Sys2Proof.Machine

/-- The one byte that remains of a last Block is its high one (R212). -/
@[simp] theorem hiByte_and_ff00 (p : Word) : hiByte (p &&& 0xFF00) = hiByte p := by
  have h : (0xFF00 : Word).extractLsb' 8 8 = BitVec.allOnes 8 := by decide
  rw [hiByte, BitVec.extractLsb'_and, h]
  exact BitVec.and_allOnes

/-- With OUTN = 1 the high byte of DOUT is valid output (R31). -/
theorem validBytes_one {s : State} (h : s.outn = 1) (d : Word) : validBytes (statusWord s) d = [hiByte d] := by
  simp [validBytes, h]

/-- With OUTN = 0 there is no output (R31). -/
theorem validBytes_zero {s : State} (h : s.outn = 0) (d : Word) : validBytes (statusWord s) d = [] := by
  simp [validBytes, h]

/-- After CBCDL the host reads what the unpadding check leaves of the last Block, or the PADDING error (R194, R212). -/
theorem unpadResult_outcome (p : Word) (s : State) :
    (∀ m, unpadLast p = some m →
      validBytes (statusWord (unpadResult p s)) (unpadResult p s).dout = m ∧ (unpadResult p s).err = 0)
    ∧ (unpadLast p = none → (unpadResult p s).err = errBits .padding) := by
  obtain ⟨hone, h⟩ | ⟨_, rfl, h⟩ | ⟨hone, htwo, h⟩ := unpadResult_cases p s <;> rw [h]
  · rw [unpadLast_of_one hone, validBytes_one rfl, hiByte_and_ff00]
    exact ⟨fun m hm => ⟨Option.some.inj hm, rfl⟩, nofun⟩
  · rw [unpadLast_0202, validBytes_zero rfl]
    exact ⟨fun m hm => ⟨Option.some.inj hm, rfl⟩, nofun⟩
  · rw [unpadLast_of_not_valid (not_validLastBlock_iff.2 ⟨hone, htwo⟩)]
    exact ⟨nofun, fun _ => rfl⟩

/-- The host program that gives the Blocks of front and then the last one. -/
def decryptRest (front : List Word) (last : Word) : List HostStmt :=
  front.flatMap (fun c => expandPseudo (.getd c)) ++ expandPseudo (.getl last)

/-- From s to t the stream ends; the host collects the bytes of result, or the core says PADDING where there is none. -/
structure Recovers (s t : State) (result : Option (List Byte)) : Prop where
  mode_eq : t.mode = modeIdle
  collected : ∀ m, result = some m → (∃ w, t.replies = s.replies ++ w ∧ bytesCollected w = m) ∧ t.err = 0
  refused : result = none → t.err = errBits .padding

/-- A read of STATUS and DOUT with OUTN = 2 adds the two bytes of DOUT. -/
theorem Recovers.of_two {s t u : State} {result : Option (List Byte)} (h : Recovers (readResult t) u result)
    (hreplies : t.replies = s.replies) (houtn : t.outn = 2) :
    Recovers s u (result.map fun tail => hiByte t.dout :: loByte t.dout :: tail) := by
  refine ⟨h.mode_eq, fun m hm => ?_, fun hnone => h.refused (Option.map_eq_none_iff.1 hnone)⟩
  obtain ⟨tail, htail, rfl⟩ := Option.map_eq_some_iff.1 hm
  obtain ⟨⟨w, hw, rfl⟩, herr⟩ := h.collected tail htail
  refine ⟨⟨statusWord t :: t.dout :: w, ?_, ?_⟩, herr⟩
  · rw [hw, readResult, hreplies, List.append_assoc]
    rfl
  · rw [bytesCollected, validBytes_two houtn]
    rfl

/-- CBCDL with the last Block ends the stream (R211). -/
theorem recovers_getl {s : State} (hm : s.mode = modeDec) (last : Word) :
    ∃ t, RunsTo (expandPseudo (.getl last)) s t
      ∧ Recovers s t (unpadLast (decrypt s.cfg last s.cbckey ^^^ s.chain)) := by
  have hget := RunsTo.runStmts (exec_cbcdl_unpads (s := withOperand .cbcdl last s) hm)
  obtain ⟨hsome, hnone⟩ := unpadResult_outcome (chainDecrypt (withOperand .cbcdl last s))
    (closeStream (takeChain (withOperand .cbcdl last s)))
  obtain ⟨_, _, hreplies⟩ := (unpadResult_takeChain_frame (chainDecrypt (withOperand .cbcdl last s))
    (withOperand .cbcdl last s)).environment
  refine ⟨_, hget, unpadResult_mode _ _, fun m hlast => ?_, hnone⟩
  obtain ⟨hbytes, herr⟩ := hsome m hlast
  refine ⟨⟨_, congrArg (· ++ _) hreplies, ?_⟩, herr⟩
  rw [bytesCollected, hbytes]
  exact List.append_nil m

/-- CBCDB with a Block gives its plaintext Block (R210). -/
theorem RunsTo.getd {s : State} (hm : s.mode = modeDec) (x : Word) : RunsTo (expandPseudo (.getd x)) s
    (readResult (writeResult (decrypt s.cfg x s.cbckey ^^^ s.chain) (takeChain (withOperand .cbcdb x s)))) :=
  .runStmts (exec_cbcdb_decrypts (s := withOperand .cbcdb x s) hm)

/-- What an open stream gives for front and last is the unpadding of their CBC decryption, by induction on front
(R206). -/
theorem recovers_decryptRest (front : List Word) (last : Word) {s : State} (hm : s.mode = modeDec) :
    ∃ t, RunsTo (decryptRest front last) s t
      ∧ Recovers s t (unpadBlocks (cbcDecryptBlocks s.cfg s.cbckey s.chain (front ++ [last]))) := by
  induction front generalizing s with
  | nil => exact recovers_getl hm last
  | cons x front ih =>
    have hget := RunsTo.getd hm x
    obtain ⟨t, hrun, hrec⟩ := ih (s := readResult
      (writeResult (decrypt s.cfg x s.cbckey ^^^ s.chain) (takeChain (withOperand .cbcdb x s)))) hm
    have hprog : decryptRest (x :: front) last = expandPseudo (.getd x) ++ decryptRest front last := by
      simp [decryptRest]
    have hrest : cbcDecryptBlocks s.cfg s.cbckey x (front ++ [last]) ≠ [] := by
      rw [← List.length_pos_iff, length_cbcDecryptBlocks]
      simp
    refine ⟨t, hprog ▸ hget.append hrun, ?_⟩
    rw [List.cons_append, cbcDecryptBlocks, unpadBlocks_cons _ hrest]
    exact hrec.of_two rfl rfl

/-- Settles O55: the stream opens with the key and IV, and then gives what is recovered from its Blocks. -/
theorem decryptionStreamLaw : Obligations.DecryptionStreamLaw := by
  intro s k iv front last
  have hopen := RunsTo.openStream exec_cbcdi k iv { s with replies := [] }
  obtain ⟨t, hrest, hrec⟩ := recovers_decryptRest front last
    (s := openStream modeDec { s with key1 := k, keylen := 1, iv := iv, cmd := encode .cbcdi, replies := [] }) rfl
  have hrun := hopen.append hrest
  rw [decryptRest, ← List.append_assoc] at hrun
  refine ⟨{ t with pending := [] }, hrun.runProgram_eq, hrec.mode_eq, fun m hm => ?_, hrec.refused⟩
  obtain ⟨⟨w, hw, hbytes⟩, herr⟩ := hrec.collected m hm
  exact ⟨(congrArg bytesCollected hw).trans hbytes, herr⟩

/-- A program changes no parameter (R44). -/
theorem runProgram_cfg {prog : List HostStmt} {s t : State} (h : runProgram prog s = .next t) : t.cfg = s.cfg :=
  parametersNeverChange _ { s with pending := programEvents prog, replies := [] } t h

/-- Settles O56: decryption gives back what the ciphertext was made of, with the parameters that no run changes. -/
theorem cbcRoundTrip : Obligations.CbcRoundTrip := by
  intro s k iv m
  obtain ⟨t, hrun, hblocks, _, _⟩ := runProgram_encryptProgram s k iv m
  have hcfg : t.cfg = s.cfg := runProgram_cfg hrun
  obtain hnil | ⟨front, last, hsplit⟩ := List.eq_nil_or_concat' (cbcEncrypt s.cfg k iv m)
  · have hlen := length_cbcEncrypt s.cfg k iv m
    rw [hnil] at hlen
    cases hlen
  · obtain ⟨u, hdec, _, hbytes, _⟩ := decryptionStreamLaw t k iv front last
    have hback : cbcDecrypt t.cfg k iv (front ++ [last]) = some m := by
      rw [hcfg, ← hsplit, cbcDecrypt_cbcEncrypt]
    exact ⟨t, hrun, front, last, hblocks.trans hsplit, u, hdec, hbytes m hback⟩

end Sys2Proof.Machine

/-! ## Errors

Which error a command raises is said once (`CommandEffect.error_cases`): one of three conditions holds, and the next
state is that error's, or there is no error. -/

namespace Sys2Proof.Machine

/-- The commands that R196 checks: those that work in an open stream. -/
def openStreamUsers : List Instr := [.cbceb, .cbcek, .cbcef, .cbcdb, .cbcdl]

/-- A command that needs no keys is a transform command or works in an open stream (R232). -/
theorem mem_of_keysNeeded_eq_none {i : Instr} (h : keysNeeded i = none) :
    i ∈ transformCommands ∨ i ∈ openStreamUsers := by
  cases i with
  | nop | gfmul | subnib | subnibI | subbyte | subbyteI | rotnib | subnibs | subnibsI | shiftrows | mixcol | mixcolI =>
    exact .inl (by decide)
  | cbceb | cbcek | cbcef | cbcdb | cbcdl => exact .inr (by decide)
  | _ => cases h

/-- No command that works in an open stream needs keys: the stream has its own (R197, R232). -/
theorem keysNeeded_of_mem_openStreamUsers : ∀ i ∈ openStreamUsers, keysNeeded i = none := by decide

/-- R196 speaks of commands that work in an open stream alone. -/
theorem mem_openStreamUsers_of_outOfSequence {i : Instr} {s : State} (h : outOfSequence i s) : i ∈ openStreamUsers := by
  have henc : ∀ i ∈ [Instr.cbceb, .cbcek, .cbcef], i ∈ openStreamUsers := by decide
  have hdec : ∀ i ∈ [Instr.cbcdb, .cbcdl], i ∈ openStreamUsers := by decide
  obtain ⟨hi, _⟩ | ⟨hi, _⟩ | ⟨rfl, _⟩ := h
  · exact henc i hi
  · exact hdec i hi
  · decide

/-! ### At most one condition holds -/

section
variable {i : Instr} {s : State}

/-- A command that can be out of sequence needs no keys (R235). -/
theorem keysNeeded_of_outOfSequence (h : outOfSequence i s) : keysNeeded i = none :=
  keysNeeded_of_mem_openStreamUsers i (mem_openStreamUsers_of_outOfSequence h)

/-- The command that unpads needs no keys (R235). -/
theorem keysNeeded_of_paddingWrong (h : paddingWrong i s) : keysNeeded i = none := by
  obtain ⟨rfl, _⟩ := h
  rfl

/-- The unpadding check is reached in a decryption stream, where CBCDL is in sequence (R235). -/
theorem not_outOfSequence_of_paddingWrong (h : paddingWrong i s) : ¬ outOfSequence i s := by
  obtain ⟨rfl, hm, _⟩ := h
  rintro (⟨hi, _⟩ | ⟨_, hne⟩ | ⟨hi, _⟩)
  · exact absurd hi (by decide)
  · exact hne hm
  · cases hi

/-! ### The error of a command -/

/-- What PADDING leaves: the stream closed on the ciphertext Block, and nothing of the last Block shown (R213, R234). -/
def paddingState (s : State) : State := raise .padding { closeStream (takeChain s) with dout := 0 }

/-- Where KEYLEN is wrong, the command raises KEY_LENGTH (R232). -/
theorem exec_of_keyLengthWrong (h : keyLengthWrong i s) : exec i s = .next (raise .keyLength s) := by
  obtain ⟨n, hn, hk⟩ := h
  exact exec_of_keylen_ne hn hk

/-- Where the last Block is not valid, the command raises PADDING (R234). -/
theorem exec_of_paddingWrong (h : paddingWrong i s) : exec i s = .next (paddingState s) := by
  obtain ⟨rfl, hm, hp⟩ := h
  exact (exec_cbcdl_unpads hm).trans (congrArg _ (unpadResult_of_not_valid hp _))

/-- A valid last Block is no error (R194, R212). -/
theorem unpadResult_err_of_valid {p : Word} (h : validLastBlock p) (s : State) :
    (unpadResult p s).err = errBits .ok := by
  obtain ⟨_, hu⟩ | ⟨_, _, hu⟩ | ⟨hone, htwo, _⟩ := unpadResult_cases p s
  · rw [hu]
  · rw [hu]
  · exact absurd h (not_validLastBlock_iff.2 ⟨hone, htwo⟩)

/-- An effect is the error of a condition that holds, or no error (R230). -/
theorem CommandEffect.error_cases {t : State} (h : CommandEffect s i t) :
    (keyLengthWrong i s ∧ t = raise .keyLength s) ∨ (outOfSequence i s ∧ t = raise .sequence s)
      ∨ (paddingWrong i s ∧ t = paddingState s) ∨ t.err = errBits .ok := by
  cases h with
  | keyLengthError hw => exact .inl ⟨hw, rfl⟩
  | sequenceError hw => exact .inr (.inl ⟨hw, rfl⟩)
  | unpads hm =>
    by_cases hp : validLastBlock (chainDecrypt s)
    · exact .inr (.inr (.inr (unpadResult_err_of_valid hp _)))
    · exact .inr (.inr (.inl ⟨⟨rfl, hm, hp⟩, unpadResult_of_not_valid hp _⟩))
  | _ => exact .inr (.inr (.inr rfl))

/-- Where no condition holds, ERR is OK (R230). -/
theorem CommandEffect.err_eq_ok {t : State} (h : CommandEffect s i t) (hk : ¬ keyLengthWrong i s)
    (hp : ¬ paddingWrong i s) (ho : ¬ outOfSequence i s) : t.err = errBits .ok := by
  obtain ⟨hk', _⟩ | ⟨ho', _⟩ | ⟨hp', _⟩ | hok := h.error_cases
  · exact absurd hk' hk
  · exact absurd ho' ho
  · exact absurd hp' hp
  · exact hok

/-- KEY_LENGTH has no other reason than that of R232. -/
theorem CommandEffect.err_ne_keyLength {t : State} (h : CommandEffect s i t) (hk : ¬ keyLengthWrong i s) :
    t.err ≠ errBits .keyLength := by
  obtain ⟨hk', _⟩ | ⟨_, rfl⟩ | ⟨_, rfl⟩ | hok := h.error_cases
  · exact absurd hk' hk
  · exact (by decide : errBits .sequence ≠ errBits .keyLength)
  · exact (by decide : errBits .padding ≠ errBits .keyLength)
  · exact hok ▸ (by decide : errBits .ok ≠ errBits .keyLength)

end

/-! ### What commands do not read -/

/-- A command that needs no keys neither reads nor writes KEYLEN (R232). -/
theorem exec_of_keylen_replaced {i : Instr} (hi : keysNeeded i = none) {s t : State} (h : exec i s = .next t)
    (n : BitVec 3) : exec i { s with keylen := n } = .next { t with keylen := n } := by
  obtain hi | hi := mem_of_keysNeeded_eq_none hi
  · obtain rfl | ⟨_, f, hf, hreads⟩ := exec_transform_cases hi
    · cases (exec_nop s).symm.trans h
      rfl
    · cases (hf s).symm.trans h
      have hn : f { s with keylen := n } = f s := hreads s s.key1 s.key2 s.key3 n s.mode
      rw [hf, hn]
      rfl
  · obtain ⟨f, hf, hign⟩ := exec_ignoresKeysAndIv hi
    obtain ⟨_, _, hkey1, hkey2, hkey3, _, hiv⟩ := (commandEffect_of_exec h).frame.host_regs
    cases (hf s).symm.trans h
    have hn : f { s with keylen := n } = replaceKeysAndIv s.key1 s.key2 s.key3 s.iv n (f s) := hign ..
    rw [hf, hn, ← hkey1, ← hkey2, ← hkey3, ← hiv]
    rfl

/-- ERR is in no command's condition or result and every outcome writes it, so the two sides are the same term,
command by command (R246). -/
theorem exec_err_irrelevant (i : Instr) (s : State) (e : BitVec 3) : exec i { s with err := e } = exec i s := by
  cases i <;> rfl

/-- A word outside the table of R78 decodes to no command (R76). -/
theorem exists_decode_error_of_not_mem {v : Word} (h : v ∉ legalWords) : ∃ why, decode v = .error why := by
  rwa [exists_decode_error_iff, exists_decode_ok_iff_mem_legalWords]

/-! ### The statements -/

/-- Settles O38: the two sides of the key-length check, and the commands without one. -/
theorem keyLengthCheck : Obligations.KeyLengthCheck := by
  refine ⟨fun i s n => exec_of_keylen_ne, fun i s hn => ?agree, fun i s n hn => ?none⟩
  case agree =>
    have hk : ¬ keyLengthWrong i s := fun hw => (keyLengthWrong_iff hn s).1 hw rfl
    have hp : ¬ paddingWrong i s := fun hp => nomatch hn.symm.trans (keysNeeded_of_paddingWrong hp)
    have ho : ¬ outOfSequence i s := fun ho => nomatch hn.symm.trans (keysNeeded_of_outOfSequence ho)
    obtain ⟨t, ht, heff⟩ := exec_effect i s
    exact ⟨t, ht, heff.err_eq_ok hk hp ho⟩
  case none =>
    obtain ⟨t, ht, heff⟩ := exec_effect i s
    exact ⟨t, ht, heff.err_ne_keyLength (not_keyLengthWrong_of_none hn s), exec_of_keylen_replaced hn ht n⟩

/-- Settles O40: the conditions exclude each other, each has its equation of `exec`, and there is no other error. -/
theorem errorOfEveryCommand : Obligations.ErrorOfEveryCommand := by
  refine ⟨fun i s => ⟨fun ⟨hk, ho⟩ => not_keyLengthWrong_of_none (keysNeeded_of_outOfSequence ho) s hk,
    fun ⟨hk, hp⟩ => not_keyLengthWrong_of_none (keysNeeded_of_paddingWrong hp) s hk,
    fun ⟨ho, hp⟩ => not_outOfSequence_of_paddingWrong hp ho⟩, fun i s => ?command, fun s v rest hv => ?illegal⟩
  case command =>
    obtain ⟨t, ht, heff⟩ := exec_effect i s
    have err_of_exec : ∀ {u : State}, exec i s = .next u → t.err = u.err := fun hu => by
      cases ht.symm.trans hu
      rfl
    exact ⟨t, ht, fun hk => err_of_exec (exec_of_keyLengthWrong hk), fun hp => err_of_exec (exec_of_paddingWrong hp),
      fun ho => err_of_exec (exec_of_outOfSequence ho), heff.err_eq_ok⟩
  case illegal =>
    obtain ⟨why, hw⟩ := exists_decode_error_of_not_mem hv
    exact ⟨_, step_write_illegal hw s rest, rfl, rfl⟩

/-- Settles O41: an illegal word has its one effect, and a command's error is one of the three of `error_cases`. -/
theorem errorsArePrecise : Obligations.ErrorsArePrecise := by
  intro s t v rest h
  cases hd : decode v with
  | error why =>
    cases h.symm.trans (step_write_illegal hd s rest)
    exact ⟨fun _ _ => rfl, fun h2 => absurd h2 (by decide : errBits .illegalCmd ≠ 2)⟩
  | ok i =>
    have heff := commandEffect_of_exec ((step_write_cmd_of_ok hd s rest).symm.trans h)
    obtain ⟨_, rfl⟩ | ⟨_, rfl⟩ | ⟨_, rfl⟩ | hok := heff.error_cases
    · exact ⟨fun _ _ => rfl, fun h2 => absurd h2 (by decide : errBits .keyLength ≠ 2)⟩
    · exact ⟨fun _ _ => rfl, fun h2 => absurd h2 (by decide : errBits .sequence ≠ 2)⟩
    · exact ⟨fun _ hne => absurd rfl hne, fun _ => rfl⟩
    · exact ⟨fun hne => absurd hok hne, fun h2 => absurd (hok.symm.trans h2) (by decide)⟩

/-- Settles O42: neither the decoder nor a command reads ERR, and an illegal word replaces it. -/
theorem errorNotSticky : Obligations.ErrorNotSticky := by
  intro s v rest e
  rw [step_write_cmd s v rest]
  refine (step_write_cmd { s with err := e } v rest).trans ?_
  cases hd : decode v with
  | ok i =>
    rw [runCommand_of_ok hd, runCommand_of_ok hd]
    exact exec_err_irrelevant i { s with pending := rest, cmd := v } e
  | error why =>
    rw [runCommand_of_error hd, runCommand_of_error hd]
    rfl

end Sys2Proof.Machine

/-! ## Reset -/

namespace Sys2Proof.Machine

/-- After reset every register reads as 0 (R260). -/
theorem readReg_reset (r : PortReg) : readReg State.reset r = 0 := by
  cases r <;> rfl

/-- Settles O10: the fields of `State.reset`, what they read as, and the step that resets. -/
theorem resetClearsEverything : Obligations.ResetClearsEverything :=
  ⟨⟨rfl, rfl, rfl, rfl, rfl, rfl, rfl, rfl, rfl, rfl, rfl, rfl, rfl, rfl, rfl⟩,
    fun a => readReg_reset (portReg a), step_reset⟩

/-- Settles O13: resetting gives a legal state, from the state after reset too. -/
theorem resetHasInvariant : Obligations.ResetHasInvariant := .coreReset State.reset

/-! ### From reset on: KEYLEN = 0 until the host writes it, IDLE until a stream is opened -/

/-- A command that reads KEYLEN needs one key at least (R232). -/
theorem keysNeeded_ne_zero (i : Instr) : keysNeeded i ≠ some 0 := by
  cases i <;> decide

/-- With KEYLEN = 0 a command that reads it has the wrong number of keys (R232, R263). -/
theorem keyLengthWrong_of_keylen_zero {i : Instr} {s : State} (hi : keysNeeded i ≠ none) (hk : s.keylen = 0) :
    keyLengthWrong i s := by
  obtain ⟨n, hn⟩ := Option.ne_none_iff_exists'.1 hi
  refine ⟨n, hn, fun hkn => keysNeeded_ne_zero i ?_⟩
  rw [hn, ← hkn, hk]

/-- In IDLE every command that works in an open stream is out of sequence (R196, R263). -/
theorem outOfSequence_of_idle {i : Instr} {s : State} (hi : i ∈ openStreamUsers) (hm : s.mode = modeIdle) :
    outOfSequence i s := by
  have hsplit : ∀ i ∈ openStreamUsers, i ∈ [Instr.cbceb, .cbcek, .cbcef] ∨ i ∈ [Instr.cbcdb, .cbcdl] := by decide
  obtain henc | hdec := hsplit i hi
  · exact outOfSequence_of_enc henc (by rw [hm]; decide)
  · exact outOfSequence_of_dec hdec (by rw [hm]; decide)

/-- KEYLEN is index 7 and no other (R22). -/
theorem portReg_eq_keylen_iff (a : BitVec 4) : portReg a = .keylen ↔ a = 7 := by
  revert a; decide

/-- A write to another register leaves KEYLEN (R58). -/
theorem storeReg_keylen_of_ne {r : PortReg} (h : r ≠ .keylen) (v : Word) (s : State) :
    (storeReg r v s).keylen = s.keylen := by
  cases r with
  | keylen => exact absurd rfl h
  | _ => rfl

/-- KEYLEN = 0 lasts until a write to it: no command writes KEYLEN, and reset makes it 0 (R26, R263). -/
theorem EventEffect.keylen_zero {e : HostEvent} {s t : State} (h : EventEffect s e t) (hk : s.keylen = 0)
    (he : ∀ v, e ≠ .busWrite 7 v) : t.keylen = 0 := by
  cases h with
  | read | illegal => exact hk
  | @store a v _ =>
    have ha : portReg a ≠ .keylen := fun hr => he v (by rw [(portReg_eq_keylen_iff a).1 hr])
    rw [storeReg_keylen_of_ne ha, hk]
  | command _ heff =>
    obtain ⟨_, _, _, _, _, hkeylen, _⟩ := heff.frame.host_regs
    exact hkeylen.trans hk
  | reset => rfl

/-- A command other than the two that open a stream stays in IDLE (R195). -/
theorem CommandEffect.mode_idle {i : Instr} {s t : State} (h : CommandEffect s i t) (hm : s.mode = modeIdle)
    (hi : i ∉ [Instr.cbcei, .cbcdi]) : t.mode = modeIdle := by
  cases h with
  | opensEnc | opensDec => exact absurd (by decide) hi
  | finishes => rfl
  | unpads => exact unpadResult_mode _ _
  | _ => exact hm

/-- IDLE lasts until a write of CBCEI or CBCDI to CMD (R195, R263). -/
theorem EventEffect.mode_idle {e : HostEvent} {s t : State} (h : EventEffect s e t) (hm : s.mode = modeIdle)
    (hei : e ≠ .busWrite 0 (encode .cbcei)) (hdi : e ≠ .busWrite 0 (encode .cbcdi)) : t.mode = modeIdle := by
  cases h with
  | read | illegal => exact hm
  | store v =>
    obtain ⟨_, _, hmode, _⟩ := (storeReg_frame _ v s).status
    exact hmode.trans hm
  | @command v i _ hd heff =>
    have hv : v = encode i := eq_encode_of_decode_eq_ok hd
    refine heff.mode_idle hm fun hi => ?_
    simp only [List.mem_cons, List.not_mem_nil, or_false] at hi
    obtain rfl | rfl := hi
    · exact hei (by rw [hv])
    · exact hdi (by rw [hv])
  | reset => rfl

/-! ### The transforms on DIN = 0x0000 -/

section
variable {s : State} (h : s.din = 0)
include h

/-- 0 times 0 (R112). -/
theorem resultOf_gfmul_of_din_zero : resultOf .gfmul s = some 0 := by
  rw [resultOf_gfmul, dinFactorA, dinFactorB, h]
  decide

/-- The two nibbles of 0x00 exchanged (R117). -/
theorem resultOf_rotnib_of_din_zero : resultOf .rotnib s = some 0 := by
  rw [resultOf_rotnib, dinByte, h]
  decide

/-- The exchange of two cells does not show on equal cells (R120). -/
theorem resultOf_shiftrows_of_din_zero : resultOf .shiftrows s = some 0 := by
  have hcells : s10 s.cfg.layout 0 = s11 s.cfg.layout 0 := by cases s.cfg.layout <;> rfl
  rw [resultOf_shiftrows, h, shiftRows_of_eq hcells]

/-- The mix of the zero column is zero (R121). -/
theorem resultOf_mixcol_of_din_zero : resultOf .mixcol s = some 0 := by
  obtain ⟨hzero, _⟩ := mixColumns_corners s.cfg.layout
  rw [resultOf_mixcol, h, hzero]

/-- The inverse mix undoes the mix of the zero column (R122). -/
theorem resultOf_mixcolI_of_din_zero : resultOf .mixcolI s = some 0 := by
  obtain ⟨hzero, _⟩ := mixColumns_corners s.cfg.layout
  have hinv := mixColumns_true_false s.cfg.layout 0
  rw [hzero] at hinv
  rw [resultOf_mixcolI, h, hinv]

end

/-- Settles O11: the checks that fail, the steps that keep them failing, and the transforms of 0x0000. -/
theorem firstCommandAfterReset : Obligations.FirstCommandAfterReset :=
  ⟨⟨rfl, rfl⟩, fun _ _ hi hk => exec_of_keyLengthWrong (keyLengthWrong_of_keylen_zero hi hk),
    fun _ _ _ _ hk he h => (eventEffect_of_step h).keylen_zero hk he,
    fun _ _ hi hm => exec_of_outOfSequence (outOfSequence_of_idle hi hm),
    fun _ _ _ _ hm hei hdi h => (eventEffect_of_step h).mode_idle hm hei hdi,
    fun _ => ⟨rfl, resultOf_gfmul_of_din_zero rfl, rfl, rfl, rfl, rfl, resultOf_rotnib_of_din_zero rfl, rfl, rfl,
      resultOf_shiftrows_of_din_zero rfl, resultOf_mixcol_of_din_zero rfl, resultOf_mixcolI_of_din_zero rfl⟩⟩

end Sys2Proof.Machine

/-! ## DOUT is no operand

A command that writes DOUT gives the same state whatever DOUT was; one that does not write it carries the other value
along. Which of the two happens depends on the checks, so each check passes the property on from what is behind it. -/

namespace Sys2Proof.Machine

/-- f does not read DOUT: with another DOUT in s the result is the same, or f leaves DOUT alone and the result is the
same but for it. -/
def IgnoresDout (f : State → State) : Prop :=
  ∀ (s : State) (d : Word),
    f { s with dout := d } = f s ∨ ((f s).dout = s.dout ∧ f { s with dout := d } = { f s with dout := d })

/-- The key-length check ignores DOUT where the command behind it does (R232). -/
theorem IgnoresDout.withKeys {n : BitVec 3} {f : State → State} (hf : IgnoresDout f) : IgnoresDout (withKeys n f) := by
  intro s d
  obtain ⟨hk, h⟩ | ⟨hk, h⟩ := withKeys_cases n f s <;> rw [h]
  · rw [withKeys_of_eq (s := { s with dout := d }) hk f]
    exact hf s d
  · exact .inr ⟨rfl, withKeys_of_ne (s := { s with dout := d }) hk f⟩

/-- The sequence check ignores DOUT where the command behind it does (R196). -/
theorem IgnoresDout.inMode {m : BitVec 2} {f : State → State} (hf : IgnoresDout f) : IgnoresDout (inMode m f) := by
  intro s d
  obtain ⟨hm, h⟩ | ⟨hm, h⟩ := inMode_cases m f s <;> rw [h]
  · rw [inMode_of_eq (s := { s with dout := d }) hm f]
    exact hf s d
  · exact .inr ⟨rfl, inMode_of_ne (s := { s with dout := d }) hm f⟩

/-- CBCEB leaves DOUT on the first byte of a block and writes it on the second (R201). -/
theorem ignoresDout_takeByte : IgnoresDout takeByte := by
  intro s d
  obtain ⟨hp, h⟩ | ⟨hp, h⟩ := takeByte_cases s <;> rw [h]
  · exact .inr ⟨rfl, if_pos hp⟩
  · exact .inl (if_neg (by simp [hp]))

/-- CBCEK leaves DOUT where a byte is held and writes it otherwise (R202). -/
theorem ignoresDout_takeBlock : IgnoresDout takeBlock := by
  intro s d
  obtain ⟨hp, h⟩ | ⟨hp, h⟩ := takeBlock_cases s <;> rw [h]
  · exact .inr ⟨rfl, if_pos hp⟩
  · exact .inl (if_neg hp)

/-- Every command is a function of the state that ignores DOUT (R265). -/
theorem exec_ignoresDout (i : Instr) : ∃ f, (∀ s, exec i s = .next (f s)) ∧ IgnoresDout f := by
  cases i with
  | nop => exact ⟨_, exec_nop, fun _ _ => .inr ⟨rfl, rfl⟩⟩
  | cbcei | cbcdi => exact ⟨_, fun _ => rfl, .withKeys fun _ _ => .inr ⟨rfl, rfl⟩⟩
  | cbceb => exact ⟨_, exec_cbceb, .inMode ignoresDout_takeByte⟩
  | cbcek => exact ⟨_, exec_cbcek, .inMode ignoresDout_takeBlock⟩
  | cbcef | cbcdb | cbcdl => exact ⟨_, fun _ => rfl, .inMode fun _ _ => .inl rfl⟩
  | gfmul | subnib | subnibI | subbyte | subbyteI | rotnib | subnibs | subnibsI | shiftrows | mixcol | mixcolI =>
    exact ⟨_, fun _ => rfl, fun _ _ => .inl rfl⟩
  | addkey | keyexp0 | keyexp1 | keyexp2 | enc | dec | denc | ddec | edeenc | ededec | eeeenc | eeedec =>
    exact ⟨_, fun _ => rfl, .withKeys fun _ _ => .inl rfl⟩

/-- Settles O59: the command writes DOUT, and the two results are equal, or leaves both values of it. -/
theorem doutNeverOperand : Obligations.DoutNeverOperand := by
  intro i s d
  obtain ⟨f, hf, hign⟩ := exec_ignoresDout i
  refine ⟨f s, f { s with dout := d }, hf _, hf _, ?_⟩
  obtain heq | ⟨hkeep, heq⟩ := hign s d <;> rw [heq]
  · exact ⟨rfl, .inl rfl⟩
  · exact ⟨rfl, .inr ⟨hkeep, rfl⟩⟩

end Sys2Proof.Machine
